-- ==== Sys2Proof/Word.lean ====
section
/-! DEFINITION. The widths of the machine's values (00_scope.md R8, R11; 10_state.md R17): every register and every
memory word is a bit vector of a fixed width. -/

namespace Sys2Proof

/-- A 16-bit word: AC, DR, IR, TR and every memory word (`WORD_BITS`, R8). -/
abbrev Word := BitVec 16

/-- A 12-bit address, read unsigned: AR and PC (`ADDR_BITS`, R8; 20_memory.md R38). -/
abbrev Addr := BitVec 12

/-- An 8-bit value: INPR and OUTR (`IO_BITS`, R8). -/
abbrev Byte := BitVec 8

end Sys2Proof
end

