-- ==== Sys2Proof/Config.lean ====
section
/-! DEFINITION. The parameters the spec leaves to the construction of an engine (00_scope.md R8, rows OPEN; R122). They
are data that State holds and no step writes, so a statement about every state holds for every value of them. The values
R8 fixes or recommends stand in Machine/Parameters.lean. -/

namespace Sys2Proof

/-- `PC_WIDEN`: how a 12-bit register value becomes a 16-bit word (R15, R21, decision D13). -/
inductive PcWiden where
  | sext
  | zext
deriving DecidableEq, Repr

/-- One scripted input event: a (trigger-cycle, 8-bit value) pair (60_exceptions.md R116). -/
structure InputEvent where
  trigger : Nat
  value : Byte
deriving DecidableEq, Repr

/-- The open parameters of R8, each under the spec's name in lower camel case. -/
structure Config where
  /-- `HLT_TICKS`, 0 or 1 (R91, decision D7). -/
  hltTicks : Nat
  /-- `SZA_TICKS`, 0 or 1 (R89, decision D8). -/
  szaTicks : Nat
  /-- `RTI_SELECTOR`, one-hot and distinct from the six other I/O selectors (R60, decision D6). -/
  rtiSelector : Addr
  /-- `FGO_RESET` (R36, decision D2). -/
  fgoReset : Bool
  /-- `PC_WIDEN` (R15, decision D13). -/
  pcWiden : PcWiden
  /-- `INPUT_EVENTS`, the input device's script, in delivery order (R33, R116, decision D12). -/
  inputEvents : List InputEvent
  /-- Whether the loader's writes set the cells' "has been written" flag: the spec does not say (N20, D24).
  DESIGN CHOICE, log 16. -/
  loadMarksUsed : Bool
deriving DecidableEq, Repr

end Sys2Proof
end

