-- ==== Sys2Proof/Syntax.lean ====
section
/-! DEFINITION. The 26 instructions (00_scope.md R2), one constructor for each row of the opcode table. -/

namespace Sys2Proof

/-- An instruction. A memory-reference instruction carries its two fields (30_encoding.md R54, R55): `indirect` is the
I bit, `addr` bits 11..0. The other families have no operand: their bits 11..0 only select the operation (R56). -/
inductive Instr where
  | and (indirect : Bool) (addr : Addr)
  | add (indirect : Bool) (addr : Addr)
  | lda (indirect : Bool) (addr : Addr)
  | sta (indirect : Bool) (addr : Addr)
  | bun (indirect : Bool) (addr : Addr)
  | bsa (indirect : Bool) (addr : Addr)
  | isz (indirect : Bool) (addr : Addr)
  | cla
  | cle
  | cma
  | cme
  | cir
  | cil
  | inc
  | spa
  | sna
  | sza
  | sze
  | hlt
  | inp
  | out
  | ski
  | sko
  | ion
  | iof
  | rti
deriving DecidableEq, Repr

/-- The three families (30_encoding.md R55). -/
inductive Family where
  | memoryReference
  | registerReference
  | inputOutput
deriving DecidableEq, Repr

/-- The family of an instruction (00_scope.md R2). -/
def Instr.family : Instr → Family
  | .and _ _ | .add _ _ | .lda _ _ | .sta _ _ | .bun _ _ | .bsa _ _ | .isz _ _ => .memoryReference
  | .cla | .cle | .cma | .cme | .cir | .cil | .inc | .spa | .sna | .sza | .sze | .hlt => .registerReference
  | .inp | .out | .ski | .sko | .ion | .iof | .rti => .inputOutput

end Sys2Proof
end

