-- ==== Sys2Proof/Machine/Parameters.lean ====
section
/-! DEFINITION. The values the spec gives the machine's constants (00_scope.md R8), each in one place (item U8): the memory
size and fill, the runaway ceiling, the tick counts of 70_reset_and_hazards.md R137, and the recommended defaults of the
open parameters. -/

namespace Sys2Proof

/-- `MEM_WORDS`: addresses 0..4095 (R8, 20_memory.md R37). -/
def memWords : Nat := 4096

/-- `MEM_FILL`: the HLT encoding, the content of every word before the loader runs (R8, 20_memory.md R42). It is what an
address that memory does not list reads as. -/
def memFill : Word := 0x7001

/-- `CYCLE_CEILING` (R8, 60_exceptions.md R103). -/
def cycleCeiling : Nat := 600

/-- FETCH's ticks (40_instruction_cycle.md R68). -/
def fetchTicks : Nat := 2

/-- DECODE's tick (R69). -/
def decodeTicks : Nat := 1

/-- The tick of indirect resolution (R70). -/
def indirectTicks : Nat := 1

/-- The EXECUTE ticks of each instruction: the table of 70_reset_and_hazards.md R137. -/
def executeTicks (c : Config) : Instr → Nat
  | .and _ _ | .add _ _ | .lda _ _ => 2
  | .sta _ _ => 1
  | .bun _ _ => 1
  | .bsa _ _ => 2
  | .isz _ _ => 3
  | .cla | .cle | .cma | .cme | .cir | .cil | .inc | .spa | .sna | .sze => 1
  | .sza => c.szaTicks
  | .hlt => c.hltTicks
  | .inp | .out | .ski | .sko | .ion | .iof | .rti => 1

/-- The defaults R8 recommends for the open parameters (log 2). -/
def defaultConfig : Config where
  hltTicks := 0
  szaTicks := 0
  rtiSelector := 0x020
  fgoReset := false
  pcWiden := .sext
  inputEvents := []
  loadMarksUsed := false

end Sys2Proof
end

