-- ==== Sys2Proof/Machine/State.lean ====
section
/-! DEFINITION. The state of the engine as plain data (10_state.md), the ways a step can stop, and the state after
reset. Registers and flags keep the spec's names. -/

namespace Sys2Proof.Machine

/-- A memory cell: an address and the 16-bit word there. The machine's smallest addressable unit is the word (20_memory.md
R39, R40), so a cell holds a word, not a byte. DESIGN CHOICE, log 1. -/
abbrev Cell := Nat × Word

/-- Memory in canonical form: addresses strictly rising, none outside 0..4095, and no entry equal to `memFill`, which is
what an unlisted address reads as (20_memory.md R37, R42; log 1). -/
abbrev Memory := List Cell

/-- The canonical form of memory. -/
abbrev Memory.wf (m : Memory) : Prop :=
  (m.map Prod.fst).Pairwise (· < ·) ∧ ∀ cell ∈ m, cell.1 < memWords ∧ cell.2 ≠ memFill

/-- The addresses whose "has been written" flag is set (20_memory.md R44), strictly rising. -/
abbrev UsedSet := List Nat

/-- The canonical form of the set of used addresses. -/
abbrev UsedSet.wf (u : UsedSet) : Prop := u.Pairwise (· < ·) ∧ ∀ a ∈ u, a < memWords

/-- The phases of the control state machine (10_state.md R31). -/
inductive Phase where
  | fetch
  | decode
  | execute
  | interruptCheck
  | halted
deriving DecidableEq, Repr

/-- `HALT_REASON` (10_state.md R32). -/
inductive HaltReason where
  | running
  | hltExecuted
  | decodeFailure
  | runaway
  | notStarted
deriving DecidableEq, Repr

/-- Everything the spec gives the machine. -/
structure State where
  /-- accumulator (R24) -/
  AC : Word
  /-- address register (R24) -/
  AR : Addr
  /-- data register (R24) -/
  DR : Word
  /-- instruction register (R24) -/
  IR : Word
  /-- program counter (R24, R25) -/
  PC : Addr
  /-- temporary register of the interrupt-service sequence (R24) -/
  TR : Word
  /-- input register (R24) -/
  INPR : Byte
  /-- output register (R24) -/
  OUTR : Byte
  /-- run flag (R26) -/
  S : Bool
  /-- indirect-addressing flag (R26) -/
  I : Bool
  /-- carry out (R26, R27) -/
  E : Bool
  /-- interrupt-service cycle active (R26, R28) -/
  R : Bool
  /-- interrupt enable (R26) -/
  IEN : Bool
  /-- input ready (R26) -/
  FGI : Bool
  /-- output ready (R26) -/
  FGO : Bool
  /-- decoded opcode field (R29) -/
  D : BitVec 3
  /-- cycle counter (R30) -/
  CYC : Nat
  /-- cursor of the input device: the index of the next undelivered event (R33) -/
  EVQ : Nat
  /-- phase of the control state machine (R31) -/
  phase : Phase
  /-- why the run ended (R32) -/
  haltReason : HaltReason
  /-- memory (20_memory.md R37) -/
  mem : Memory
  /-- the cells' "has been written" flags, read by the snapshot only (20_memory.md R44; log 16) -/
  used : UsedSet
  /-- the parameters of construction, never written (00_scope.md R8; log 2) -/
  config : Config
deriving DecidableEq, Repr

/-- Why a step answers no state. Both are raised by `step` alone, never by an instruction. -/
inductive Fault where
  /-- The engine is HALTED (or S = 0): "HALTED has no step" (60_exceptions.md R105, item U11). It carries HALT_REASON.
  Safe: no state follows, where the hardware has none either. -/
  | halted (reason : HaltReason)
  /-- The state is no boundary between instruction cycles, which the cycle of 40_instruction_cycle.md R66 requires
  (phase = FETCH, S = 1, R = 0); no run reaches such a state. Safe (log 9). -/
  | notAtCycleBoundary
deriving DecidableEq, Repr

/-- Why an instruction is given no meaning. -/
inductive Refusal where
  /-- Raised by an arm of `exec` whose instruction has no meaning in this model yet: no arm has it now. Safe. -/
  | notModelled (mnemonic : String)
deriving DecidableEq, Repr

/-- Steps 1 and 2 of reset (70_reset_and_hazards.md R126): memory filled, every register and flag at its value of
10_state.md R36, no program loaded and so not started. The zeros are the spec's decision D1 (log 4); that no "has been written" flag is set,
the fill leaving them clear, is this model's choice (DESIGN CHOICE, log 16). -/
def State.initial (c : Config) : State where
  AC := 0
  AR := 0
  DR := 0
  IR := 0
  PC := 0
  TR := 0
  INPR := 0
  OUTR := 0
  S := false
  I := false
  E := false
  R := false
  IEN := false
  FGI := false
  FGO := c.fgoReset
  D := 0
  CYC := 0
  EVQ := 0
  phase := .halted
  haltReason := .notStarted
  mem := []
  used := []
  config := c

/-- The start of a run at `p` after a valid load (70_reset_and_hazards.md R127). -/
def State.started (p : Addr) (s : State) : State :=
  { s with PC := p, S := true, phase := .fetch, haltReason := .running }

/-- The machine right after reset with the default parameters, the empty image and START_PC = 0x000 (R36, R126, R127). The
start value and the image are the loader's arguments; these two are the model's choice: DESIGN CHOICE, log 3. -/
def State.reset : State := (State.initial defaultConfig).started 0

end Sys2Proof.Machine
end

