-- ==== Sys2Proof/Machine/Flags.lean ====
section
/-! DEFINITION. Every flag computation of the spec: the carry of ADD, the two rotations through E, and the conditions the
skips test. E is the only arithmetic flag (10_state.md R27). -/

namespace Sys2Proof.Machine

/-- `uint(AC) + uint(DR)` on 17 bits (41_memory_reference.md R74). -/
def sum17 (a b : Word) : BitVec 17 := a.setWidth 17 + b.setWidth 17

/-- `sum[15:0]` (R74). -/
def addResult (a b : Word) : Word := (sum17 a b).extractLsb 15 0

/-- `sum[16]`, the carry out of the unsigned sum (R74). -/
def addCarry (a b : Word) : Bool := (sum17 a b).getLsbD 16

/-- A one-bit flag as a 16-bit word: `zext_16(E)` (00_scope.md R11). -/
def flagWord (e : Bool) : Word := (BitVec.ofBool e).setWidth 16

/-- AC after CIR: `(zext_16(E) << 15) | (AC >> 1)`, a logical shift (42_register_reference.md R84). -/
def rotateRightAc (ac : Word) (e : Bool) : Word := (flagWord e <<< 15) ||| (ac >>> 1)

/-- E after CIR: the old AC[0] (R84). -/
def rotateRightE (ac : Word) : Bool := ac.getLsbD 0

/-- AC after CIL: `((AC << 1)[15:0]) | zext_16(E)` (R85). -/
def rotateLeftAc (ac : Word) (e : Bool) : Word := (ac <<< 1) ||| flagWord e

/-- E after CIL: the old AC[15] (R85). -/
def rotateLeftE (ac : Word) : Bool := ac.getLsbD 15

/-- The sign bit, AC[15] (00_scope.md R10), which SPA and SNA test (R87, R88). -/
def signBit (v : Word) : Bool := v.getLsbD 15

/-- Whether a word is 0x0000, which SZA and ISZ test (R89, R79). -/
def isZero (v : Word) : Bool := v == 0

end Sys2Proof.Machine
end

