-- ==== Sys2Proof/WellFormed.lean ====
section
/-! DEFINITION. What the types do not already say. Every field of an instruction has its width in its type, so the one
check on an instruction is that RTI has a word of its own, which depends on the parameter `RTI_SELECTOR` (00_scope.md R8,
30_encoding.md R60). The checks on the parameters are the admissible values of R8. -/

namespace Sys2Proof

/-- The selectors an admissible `RTI_SELECTOR` may take: the one-hot 12-bit values that are none of the six other I/O
selectors 0x800, 0x400, 0x200, 0x100, 0x080, 0x040 (R8, R60). -/
def rtiSelectors : List Addr := [0x020, 0x010, 0x008, 0x004, 0x002, 0x001]

/-- `RTI_SELECTOR` is admissible (R8). -/
def Config.rtiSelectorWf (c : Config) : Bool := rtiSelectors.contains c.rtiSelector

/-- `HLT_TICKS` is admissible: 0, "the only other admissible value is 1" (R8). -/
def Config.hltTicksWf (c : Config) : Bool := c.hltTicks ≤ 1

/-- `SZA_TICKS` is admissible: 0, "the only other admissible value is 1" (R8). -/
def Config.szaTicksWf (c : Config) : Bool := c.szaTicks ≤ 1

/-- Every parameter with a restricted range is in it (R8). -/
def Config.wf (c : Config) : Bool := c.rtiSelectorWf && c.hltTicksWf && c.szaTicksWf

/-- An instruction is well formed under `c` when it has a word that is its own: always, but for RTI, whose selector is
`RTI_SELECTOR` (R60). -/
def Instr.wf (c : Config) : Instr → Bool
  | .rti => c.rtiSelectorWf
  | .and _ _ | .add _ _ | .lda _ _ | .sta _ _ | .bun _ _ | .bsa _ _ | .isz _ _ => true
  | .cla | .cle | .cma | .cme | .cir | .cil | .inc | .spa | .sna | .sza | .sze | .hlt => true
  | .inp | .out | .ski | .sko | .ion | .iof => true

end Sys2Proof
end

