-- ==== Sys2Proof/Decode.lean ====
section
/-! DEFINITION. The fields of an instruction word, the decoder (30_encoding.md R54 to R62), total on every 16-bit word and
rejecting by name, and the encoder written from the tables of R57, R59 and R60. -/

namespace Sys2Proof

/-- Why a word is no instruction: the two ways of R62. -/
inductive Reject where
  /-- D = 7, I = 0 and the selector is not one-hot (R58). -/
  | registerReferenceSelector (sel : Addr)
  /-- D = 7, I = 1 and the selector is none of the seven (R60). -/
  | inputOutputSelector (sel : Addr)
deriving DecidableEq, Repr

/-- `D = w[14:12]` (R54). -/
def opcodeField (w : Word) : BitVec 3 := w.extractLsb 14 12

/-- `I = w[15]` (R54). -/
def indirectField (w : Word) : Bool := w.getLsbD 15

/-- `w[11:0]`: the address or selector of an instruction word (R54), and the part of any word that is used as an address
(10_state.md R22: "AR ← Memory[AR] (low 12 bits)"). -/
def addressField (w : Word) : Addr := w.extractLsb 11 0

/-- The memory-reference instruction of an opcode, D = 0..6 (R57); `none` for D = 7. -/
def memoryReferenceInstr (d : BitVec 3) (indirect : Bool) (addr : Addr) : Option Instr :=
  match d.toNat with
  | 0 => some (.and indirect addr)
  | 1 => some (.add indirect addr)
  | 2 => some (.lda indirect addr)
  | 3 => some (.sta indirect addr)
  | 4 => some (.bun indirect addr)
  | 5 => some (.bsa indirect addr)
  | 6 => some (.isz indirect addr)
  | _ => none

/-- The register-reference selectors (R59). -/
def registerReferenceTable : List (Addr × Instr) :=
  [(0x800, .cla), (0x400, .cle), (0x200, .cma), (0x100, .cme), (0x080, .cir), (0x040, .cil),
   (0x020, .inc), (0x010, .spa), (0x008, .sna), (0x004, .sza), (0x002, .sze), (0x001, .hlt)]

/-- The I/O selectors, in the order R61 tests them; RTI's is the parameter `RTI_SELECTOR` (R60). -/
def inputOutputTable (c : Config) : List (Addr × Instr) :=
  [(0x800, .inp), (0x400, .out), (0x200, .ski), (0x100, .sko), (0x080, .ion), (0x040, .iof), (c.rtiSelector, .rti)]

/-- The instruction of the first row with this selector. -/
def selectorLookup (table : List (Addr × Instr)) (sel : Addr) : Option Instr :=
  match table with
  | [] => none
  | row :: rest => if row.1 = sel then some row.2 else selectorLookup rest sel

/-- The register-reference words (R58, R59). -/
def decodeRegisterReference (sel : Addr) : Except Reject Instr :=
  match selectorLookup registerReferenceTable sel with
  | some i => .ok i
  | none => .error (.registerReferenceSelector sel)

/-- The I/O words (R60). -/
def decodeInputOutput (c : Config) (sel : Addr) : Except Reject Instr :=
  match selectorLookup (inputOutputTable c) sel with
  | some i => .ok i
  | none => .error (.inputOutputSelector sel)

/-- The decode function of R61. -/
def decode (c : Config) (w : Word) : Except Reject Instr :=
  match memoryReferenceInstr (opcodeField w) (indirectField w) (addressField w) with
  | some i => .ok i
  | none =>
    if indirectField w then decodeInputOutput c (addressField w) else decodeRegisterReference (addressField w)

/-- The word `I : D : addr` (R54). -/
def instrWord (indirect : Bool) (d : BitVec 3) (addr : Addr) : Word := BitVec.ofBool indirect ++ d ++ addr

/-- The word of an instruction: the tables of R57, R59 and R60. -/
def encode (c : Config) : Instr → Word
  | .and i a => instrWord i 0 a
  | .add i a => instrWord i 1 a
  | .lda i a => instrWord i 2 a
  | .sta i a => instrWord i 3 a
  | .bun i a => instrWord i 4 a
  | .bsa i a => instrWord i 5 a
  | .isz i a => instrWord i 6 a
  | .cla => 0x7800
  | .cle => 0x7400
  | .cma => 0x7200
  | .cme => 0x7100
  | .cir => 0x7080
  | .cil => 0x7040
  | .inc => 0x7020
  | .spa => 0x7010
  | .sna => 0x7008
  | .sza => 0x7004
  | .sze => 0x7002
  | .hlt => 0x7001
  | .inp => 0xF800
  | .out => 0xF400
  | .ski => 0xF200
  | .sko => 0xF100
  | .ion => 0xF080
  | .iof => 0xF040
  | .rti => instrWord true 7 c.rtiSelector

/-- The decoder on a row of spec/opcode_table.json, which gives RTI's word for the default `RTI_SELECTOR`. Every
instruction is one 16-bit word (R53), so the bits above `nbits` are zero and no row is longer than 16 bits. -/
def decodeTableWord (nbits w : Nat) : Option Instr :=
  if nbits ≤ 16 ∧ w < 2 ^ nbits then (decode defaultConfig (BitVec.ofNat 16 w)).toOption else none

end Sys2Proof
end

