-- ==== Sys2Proof/Machine/Ops.lean ====
section
/-! DEFINITION. The named operations over memory and registers that the instruction cycle and the instructions share:
the register model (10_state.md R17 to R21), memory (20_memory.md), the primitives of 00_scope.md R14, FETCH, DECODE and indirect resolution (40_instruction_cycle.md
R68 to R70), interrupt entry and return (60_exceptions.md R109, R110), the input device (R117) and the runaway guard
(R103). -/

namespace Sys2Proof.Machine

/-! The register model: a w-bit register read as a signed integer, written by truncation -/

/-- `get()`: the value "sign-extended as a native signed integer" (R19). -/
def Register.get (w : Nat) (v : BitVec w) : Int := v.toInt

/-- `set(v)` "truncates v to width bits and stores it" (R18). -/
def Register.set (w : Nat) (v : Int) : BitVec w := BitVec.ofInt w v

/-- `increment()`: plus one modulo 2^w (R20). -/
def Register.increment {w : Nat} (v : BitVec w) : BitVec w := v + 1

/-! Memory -/

/-- The word a cell list gives an address; an unlisted address reads as `memFill` (R42). -/
def Memory.lookup (m : Memory) (a : Nat) : Word :=
  match m with
  | [] => memFill
  | cell :: rest => if cell.1 = a then cell.2 else Memory.lookup rest a

/-- Puts a cell at its place by address. -/
def Memory.insert (a : Nat) (v : Word) (m : Memory) : Memory :=
  match m with
  | [] => [(a, v)]
  | cell :: rest => if a < cell.1 then (a, v) :: cell :: rest else cell :: Memory.insert a v rest

/-- "read(addr) returns the 16-bit word at addr" (R39). -/
def Memory.read (m : Memory) (a : Addr) : Word := Memory.lookup m a.toNat

/-- "write(addr, value) stores the word" (R39). Writing `memFill` unlists the address, so the form stays canonical. -/
def Memory.write (m : Memory) (a : Addr) (v : Word) : Memory :=
  if v = memFill then m.filter (fun cell => cell.1 != a.toNat)
  else Memory.insert a.toNat v (m.filter (fun cell => cell.1 != a.toNat))

/-- Sets the "has been written" flag of an address (R44). -/
def UsedSet.mark (u : UsedSet) (a : Nat) : UsedSet :=
  match u with
  | [] => [a]
  | b :: rest => if a < b then a :: b :: rest else if a = b then b :: rest else b :: UsedSet.mark rest a

/-- `MemRead(a, 1)` (00_scope.md R13). -/
def State.readMem (s : State) (a : Addr) : Word := s.mem.read a

/-- `MemWrite(a, 1, v)` (00_scope.md R13); "write marks the cell used" (R44). -/
def State.writeMem (a : Addr) (v : Word) (s : State) : State :=
  { s with mem := s.mem.write a v, used := s.used.mark a.toNat }

/-! Engine primitives (00_scope.md R14, R15) -/

/-- `tick(n)`. -/
def State.tick (n : Nat) (s : State) : State := { s with CYC := s.CYC + n }

/-- `halt(reason)`. -/
def State.halt (reason : HaltReason) (s : State) : State :=
  { s with S := false, phase := .halted, haltReason := reason }

/-- `skip` when the condition holds: "PC←PC+1 — never a separate branch target", 12-bit (R14, 10_state.md R20). -/
def State.skipIf (cond : Bool) (s : State) : State := { s with PC := if cond then Register.increment s.PC else s.PC }

/-- `widenPC(p)` (R15): the 16-bit word in which a 12-bit register value is stored. SEXT is the register model's own way:
"read sign-extended, write truncated to 16 bits" (R21). -/
def widenPC (c : Config) (p : Addr) : Word :=
  match c.pcWiden with
  | .sext => Register.set 16 (Register.get 12 p)
  | .zext => p.setWidth 16

/-! The instruction cycle's phases -/

/-- FETCH (40_instruction_cycle.md R68): "AR ← PC; IR ← Memory[AR]; PC ← PC + 1; consumes 2 cycle ticks." -/
def State.fetch (s : State) : State :=
  let s := { s with AR := s.PC }
  let s := { s with IR := s.readMem s.AR }
  let s := { s with PC := Register.increment s.PC, phase := .decode }
  s.tick fetchTicks

/-- DECODE (R69) but for the classification of IR, which is `decode`: D, I and AR take the fields of IR, one tick. -/
def State.decodePhase (s : State) : State :=
  let s := { s with D := opcodeField s.IR, I := indirectField s.IR, AR := addressField s.IR, phase := .execute }
  s.tick decodeTicks

/-- Indirect resolution (R70): exactly one level, bits 15..12 of the pointer word discarded, one tick. -/
def State.resolveIndirect (s : State) : State :=
  let s := { s with AR := addressField (s.readMem s.AR) }
  s.tick indirectTicks

/-! The interrupt controller: entry (60_exceptions.md R109), one operation of three ticks, and the return (R98, R110) -/

/-- "An interrupt is taken at INTERRUPT_CHECK if and only if IEN = 1 and FGI = 1 at that moment" (R108). -/
def State.interruptPending (s : State) : Bool := s.IEN && s.FGI

/-- First tick of R109: `R <- 1; AR <- 0x000; TR <- widenPC(PC)`. -/
def State.entrySavePc (s : State) : State :=
  let s := { s with R := true, AR := 0, TR := widenPC s.config s.PC }
  s.tick 1

/-- Second tick of R109: `MemWrite(AR, 1, TR); PC <- 0x000`. -/
def State.entryStoreReturn (s : State) : State :=
  let s := s.writeMem s.AR s.TR
  let s := { s with PC := 0 }
  s.tick 1

/-- Third tick of R109: `PC <- PC + 1; IEN <- 0; R <- 0`, so that PC = 0x001. -/
def State.entryJump (s : State) : State :=
  let s := { s with PC := Register.increment s.PC, IEN := false, R := false }
  s.tick 1

/-- The interrupt-service sequence (R109): the one way this machine takes an exception. -/
def State.interruptEntry (s : State) : State := s.entrySavePc.entryStoreReturn.entryJump

/-- The return from interrupt (43_input_output.md R98, R110): `AR <- 0x000; PC <- MemRead(AR, 1)[11:0]; IEN <- 1`. -/
def State.interruptReturn (s : State) : State :=
  let s := { s with AR := 0 }
  { s with PC := addressField (s.readMem s.AR), IEN := true }

/-! The input device -/

/-- One delivery attempt of the input device (R117): the event at the cursor is delivered when its trigger is reached and
FGI = 0. No tick. -/
def State.deliverInputEvent (s : State) : State :=
  match s.config.inputEvents[s.EVQ]? with
  | some event =>
    if event.trigger ≤ s.CYC ∧ s.FGI = false then { s with INPR := event.value, FGI := true, EVQ := s.EVQ + 1 } else s
  | none => s

/-! The end of a cycle -/

/-- INTERRUPT_CHECK (R72): the entry test and sequence first, then one delivery attempt. -/
def State.interruptCheck (s : State) : State :=
  let s := { s with phase := .interruptCheck }
  let s := if s.interruptPending then s.interruptEntry else s
  s.deliverInputEvent

/-- The runaway guard (R103): `if CYC >= CYCLE_CEILING` the run ends, else the next FETCH follows. -/
def State.runawayCheck (s : State) : State :=
  if cycleCeiling ≤ s.CYC then s.halt .runaway else { s with phase := .fetch }

/-- What follows EXECUTE (R66): nothing after HLT, else INTERRUPT_CHECK and the runaway guard. -/
def State.finishCycle (s : State) : State := if s.S then s.interruptCheck.runawayCheck else s

/-- The precondition of an instruction cycle (R66): phase = FETCH, S = 1, R = 0. -/
def State.atCycleBoundary (s : State) : Bool := s.phase = .fetch && s.S && !s.R

/-- The engine takes no further step: HALTED (R105), or the run flag is clear (R26: S is read by the engine loop). -/
def State.isHalted (s : State) : Bool := s.phase = .halted || !s.S

end Sys2Proof.Machine
end

