-- ==== Sys2Proof/Machine/Operands.lean ====
section
/-! DEFINITION. Operand forms: the effective address of a memory-reference instruction (30_encoding.md R56) and the byte
operands of INP and OUT (20_memory.md R40). -/

namespace Sys2Proof.Machine

/-! The operand of a memory-reference instruction -/

/-- The effective address (R56): the address field, or with I = 1 the low 12 bits of the word it points to. -/
def State.effectiveAddress (indirect : Bool) (addr : Addr) (s : State) : Addr :=
  if indirect then addressField (s.readMem addr) else addr

/-- Brings the effective address into AR: `AR <- addr` (which DECODE has done already in a cycle, R69), then with I = 1
indirect resolution with its tick (R66, R70; log 7). -/
def State.addressOperand (indirect : Bool) (addr : Addr) (s : State) : State :=
  let s := { s with AR := addr }
  if indirect then s.resolveIndirect else s

/-- `DR <- MemRead(AR, 1)`: how AND, ADD, LDA and ISZ read their operand (41_memory_reference.md). -/
def State.loadDR (s : State) : State := { s with DR := s.readMem s.AR }

/-! The low byte of AC -/

/-- "low byte" of AC: bits 7..0 (R40). -/
def lowByte (v : Word) : Byte := v.extractLsb 7 0

/-- `AC[15:8] : b`: AC with its low byte replaced (43_input_output.md R92). -/
def replaceLowByte (v : Word) (b : Byte) : Word := v.extractLsb 15 8 ++ b

end Sys2Proof.Machine
end

