-- ==== Sys2Proof/Machine/InputOutput.lean ====
section
/-! DEFINITION. The input/output instructions (43_input_output.md). Only RTI reads memory; none stops. -/

namespace Sys2Proof.Machine

/-- INP (R92): `AC <- AC[15:8] : INPR; FGI <- 0`. -/
def execInp (s : State) : Host.Outcome State Fault Refusal :=
  .next ({ s with AC := replaceLowByte s.AC s.INPR, FGI := false }.tick (executeTicks s.config .inp))

/-- OUT (R93): `OUTR <- AC[7:0]; FGO <- 0`. -/
def execOut (s : State) : Host.Outcome State Fault Refusal :=
  .next ({ s with OUTR := lowByte s.AC, FGO := false }.tick (executeTicks s.config .out))

/-- SKI (R94): skip if FGI = 1. -/
def execSki (s : State) : Host.Outcome State Fault Refusal :=
  .next ((s.skipIf s.FGI).tick (executeTicks s.config .ski))

/-- SKO (R95): skip if FGO = 1. -/
def execSko (s : State) : Host.Outcome State Fault Refusal :=
  .next ((s.skipIf s.FGO).tick (executeTicks s.config .sko))

/-- ION (R96): `IEN <- 1`, seen by the INTERRUPT_CHECK of the same cycle. -/
def execIon (s : State) : Host.Outcome State Fault Refusal :=
  .next ({ s with IEN := true }.tick (executeTicks s.config .ion))

/-- IOF (R97): `IEN <- 0`. -/
def execIof (s : State) : Host.Outcome State Fault Refusal :=
  .next ({ s with IEN := false }.tick (executeTicks s.config .iof))

/-- RTI (R98): the return from interrupt. -/
def execRti (s : State) : Host.Outcome State Fault Refusal :=
  .next (s.interruptReturn.tick (executeTicks s.config .rti))

end Sys2Proof.Machine
end

