-- ==== Sys2Proof/Machine/MemoryReference.lean ====
section
/-! DEFINITION. The memory-reference instructions (41_memory_reference.md). Each brings its effective address into AR
(direct or indirect form) and then follows its rule; none stops. -/

namespace Sys2Proof.Machine

/-- AND (R73): `DR <- M[AR]; AC <- AC & DR`. -/
def execAnd (indirect : Bool) (addr : Addr) (s : State) : Host.Outcome State Fault Refusal :=
  let s := (s.addressOperand indirect addr).loadDR
  let s := { s with AC := s.AC &&& s.DR }
  .next (s.tick (executeTicks s.config (.and indirect addr)))

/-- ADD (R74): `DR <- M[AR]`, AC the low 16 bits of the unsigned sum and E its bit 16. -/
def execAdd (indirect : Bool) (addr : Addr) (s : State) : Host.Outcome State Fault Refusal :=
  let s := (s.addressOperand indirect addr).loadDR
  let s := { s with AC := addResult s.AC s.DR, E := addCarry s.AC s.DR }
  .next (s.tick (executeTicks s.config (.add indirect addr)))

/-- LDA (R75): `DR <- M[AR]; AC <- DR`. -/
def execLda (indirect : Bool) (addr : Addr) (s : State) : Host.Outcome State Fault Refusal :=
  let s := (s.addressOperand indirect addr).loadDR
  let s := { s with AC := s.DR }
  .next (s.tick (executeTicks s.config (.lda indirect addr)))

/-- STA (R76): `M[AR] <- AC`. -/
def execSta (indirect : Bool) (addr : Addr) (s : State) : Host.Outcome State Fault Refusal :=
  let s := s.addressOperand indirect addr
  let s := s.writeMem s.AR s.AC
  .next (s.tick (executeTicks s.config (.sta indirect addr)))

/-- BUN (R77): `PC <- AR`. -/
def execBun (indirect : Bool) (addr : Addr) (s : State) : Host.Outcome State Fault Refusal :=
  let s := s.addressOperand indirect addr
  let s := { s with PC := s.AR }
  .next (s.tick (executeTicks s.config (.bun indirect addr)))

/-- BSA (R78): `M[AR] <- widenPC(PC); AR <- AR + 1; PC <- AR`. -/
def execBsa (indirect : Bool) (addr : Addr) (s : State) : Host.Outcome State Fault Refusal :=
  let s := s.addressOperand indirect addr
  let s := s.writeMem s.AR (widenPC s.config s.PC)
  let s := { s with AR := Register.increment s.AR }
  let s := { s with PC := s.AR }
  .next (s.tick (executeTicks s.config (.bsa indirect addr)))

/-- ISZ (R79): `DR <- M[AR]; DR <- DR + 1; M[AR] <- DR`, skip if DR = 0. -/
def execIsz (indirect : Bool) (addr : Addr) (s : State) : Host.Outcome State Fault Refusal :=
  let s := (s.addressOperand indirect addr).loadDR
  let s := { s with DR := Register.increment s.DR }
  let s := s.writeMem s.AR s.DR
  let s := s.skipIf (isZero s.DR)
  .next (s.tick (executeTicks s.config (.isz indirect addr)))

end Sys2Proof.Machine
end

