-- ==== Sys2Proof/Machine/RegisterReference.lean ====
section
/-! DEFINITION. The register-reference instructions (42_register_reference.md). None reads or writes memory; none stops. -/

namespace Sys2Proof.Machine

/-- CLA (R80): `AC <- 0x0000`. -/
def execCla (s : State) : Host.Outcome State Fault Refusal :=
  .next ({ s with AC := 0 }.tick (executeTicks s.config .cla))

/-- CLE (R81): `E <- 0`. -/
def execCle (s : State) : Host.Outcome State Fault Refusal :=
  .next ({ s with E := false }.tick (executeTicks s.config .cle))

/-- CMA (R82): `AC <- ~AC`. -/
def execCma (s : State) : Host.Outcome State Fault Refusal :=
  .next ({ s with AC := ~~~s.AC }.tick (executeTicks s.config .cma))

/-- CME (R83): `E <- ~E`. -/
def execCme (s : State) : Host.Outcome State Fault Refusal :=
  .next ({ s with E := !s.E }.tick (executeTicks s.config .cme))

/-- CIR (R84): E:AC rotates right by one bit. -/
def execCir (s : State) : Host.Outcome State Fault Refusal :=
  .next ({ s with AC := rotateRightAc s.AC s.E, E := rotateRightE s.AC }.tick (executeTicks s.config .cir))

/-- CIL (R85): E:AC rotates left by one bit. -/
def execCil (s : State) : Host.Outcome State Fault Refusal :=
  .next ({ s with AC := rotateLeftAc s.AC s.E, E := rotateLeftE s.AC }.tick (executeTicks s.config .cil))

/-- INC (R86): `AC <- AC + 1`, E unchanged. -/
def execInc (s : State) : Host.Outcome State Fault Refusal :=
  .next ({ s with AC := Register.increment s.AC }.tick (executeTicks s.config .inc))

/-- SPA (R87): skip if AC[15] = 0. -/
def execSpa (s : State) : Host.Outcome State Fault Refusal :=
  .next ((s.skipIf (!signBit s.AC)).tick (executeTicks s.config .spa))

/-- SNA (R88): skip if AC[15] = 1 (decision D9; log 15). -/
def execSna (s : State) : Host.Outcome State Fault Refusal :=
  .next ((s.skipIf (signBit s.AC)).tick (executeTicks s.config .sna))

/-- SZA (R89): skip if AC = 0x0000; `SZA_TICKS` ticks. -/
def execSza (s : State) : Host.Outcome State Fault Refusal :=
  .next ((s.skipIf (isZero s.AC)).tick (executeTicks s.config .sza))

/-- SZE (R90): skip if E = 0. -/
def execSze (s : State) : Host.Outcome State Fault Refusal :=
  .next ((s.skipIf (!s.E)).tick (executeTicks s.config .sze))

/-- HLT (R91): `S <- 0; tick(HLT_TICKS); halt(HLT_EXECUTED)`. -/
def execHlt (s : State) : Host.Outcome State Fault Refusal :=
  .next (({ s with S := false }.tick (executeTicks s.config .hlt)).halt .hltExecuted)

end Sys2Proof.Machine
end

