-- ==== Sys2Proof/Machine/Dispatch.lean ====
section
/-! DEFINITION. EXECUTE's dispatch "by opcode identity" (40_instruction_cycle.md R71): one arm for each instruction. -/

namespace Sys2Proof.Machine

/-- What an instruction does in EXECUTE, its indirect resolution included (R66, R71). -/
def exec (i : Instr) (s : State) : Host.Outcome State Fault Refusal :=
  match i with
  | .and indirect addr => Sys2Proof.Machine.execAnd indirect addr s
  | .add indirect addr => Sys2Proof.Machine.execAdd indirect addr s
  | .lda indirect addr => Sys2Proof.Machine.execLda indirect addr s
  | .sta indirect addr => Sys2Proof.Machine.execSta indirect addr s
  | .bun indirect addr => Sys2Proof.Machine.execBun indirect addr s
  | .bsa indirect addr => Sys2Proof.Machine.execBsa indirect addr s
  | .isz indirect addr => Sys2Proof.Machine.execIsz indirect addr s
  | .cla => Sys2Proof.Machine.execCla s
  | .cle => Sys2Proof.Machine.execCle s
  | .cma => Sys2Proof.Machine.execCma s
  | .cme => Sys2Proof.Machine.execCme s
  | .cir => Sys2Proof.Machine.execCir s
  | .cil => Sys2Proof.Machine.execCil s
  | .inc => Sys2Proof.Machine.execInc s
  | .spa => Sys2Proof.Machine.execSpa s
  | .sna => Sys2Proof.Machine.execSna s
  | .sza => Sys2Proof.Machine.execSza s
  | .sze => Sys2Proof.Machine.execSze s
  | .hlt => Sys2Proof.Machine.execHlt s
  | .inp => Sys2Proof.Machine.execInp s
  | .out => Sys2Proof.Machine.execOut s
  | .ski => Sys2Proof.Machine.execSki s
  | .sko => Sys2Proof.Machine.execSko s
  | .ion => Sys2Proof.Machine.execIon s
  | .iof => Sys2Proof.Machine.execIof s
  | .rti => Sys2Proof.Machine.execRti s

end Sys2Proof.Machine
end

