-- ==== Sys2Proof/Machine/Cycle.lean ====
section
/-! DEFINITION. One instruction cycle (40_instruction_cycle.md R66), the machine's atomic step (R67). -/

namespace Sys2Proof.Machine

/-- A word that is no instruction ends the run: `raise DecodeFailure(IR)` (60_exceptions.md R102). -/
def State.raiseDecodeFailure (s : State) : State := s.halt .decodeFailure

/-- FETCH, DECODE, EXECUTE and what follows it (R66). -/
def cycle (s : State) : Host.Outcome State Fault Refusal :=
  let s := s.fetch.decodePhase
  match decode s.config s.IR with
  | .error _ => .next s.raiseDecodeFailure
  | .ok i =>
    match exec i s with
    | .next t => .next t.finishCycle
    | .fault r => .fault r
    | .refused r => .refused r

/-- The engine's loop body (R65): a cycle from a cycle boundary; HALTED has no step (R105, item U11). -/
def engineStep (s : State) : Host.Outcome State Fault Refusal :=
  if s.isHalted then .fault (.halted s.haltReason)
  else if s.atCycleBoundary then cycle s
  else .fault .notAtCycleBoundary

end Sys2Proof.Machine
end

