-- ==== Sys2Proof/Machine/Load.lean ====
section
/-! DEFINITION. Reset and load as the host performs them before a run (70_reset_and_hazards.md R126, R127; 20_memory.md
R52), and the placing of one word where the next FETCH reads it. -/

namespace Sys2Proof.Machine

/-- The loader's write of one (address, word) pair. Whether it sets the cell's "has been written" flag is a parameter
(log 16). -/
def State.loadWord (a : Addr) (v : Word) (s : State) : State :=
  { s with mem := s.mem.write a v, used := if s.config.loadMarksUsed then s.used.mark a.toNat else s.used }

/-- The load writes each pair of `IMAGE` in order; "a word loaded twice holds the last value loaded" (R52). -/
def State.loadImage (image : List (Addr × Word)) (s : State) : State :=
  match image with
  | [] => s
  | entry :: rest => State.loadImage rest (s.loadWord entry.1 entry.2)

/-- Construction of an engine (R122, R126): the initial state, the image, and the start of the run at START_PC. `none` is
the invalid-image signal −1: the run never starts (R127, 60_exceptions.md R104), and PC is left at 0x000 (log 17). -/
def State.construct (c : Config) (image : List (Addr × Word)) (start : Option Addr) : State :=
  match start with
  | some p => ((State.initial c).loadImage image).started p
  | none => State.initial c

/-- `s` with the word `w` placed where the next FETCH reads it, at PC, and the engine at a cycle boundary with the run
flag set, which that fetch needs (R66). -/
def State.placeAtPc (w : Word) (s : State) : State :=
  { s.loadWord s.PC w with S := true, R := false, phase := .fetch, haltReason := .running }

end Sys2Proof.Machine
end

