-- ==== Sys2Proof/Machine/Step.lean ====
section
/-! DEFINITION. The machine's step, and the placing of an instruction where the next step fetches it. -/

namespace Sys2Proof.Machine

/-- One instruction cycle (40_instruction_cycle.md R66, R67). -/
def step (s : State) : Host.Outcome State Fault Refusal := engineStep s

/-- `s` with the instruction word `w` at PC and the engine ready to fetch it; it stands for the external load of a program
(20_memory.md R52; log 5). An instruction is one 16-bit word (30_encoding.md R53), whatever `nbits` the table gives. -/
def State.withFetchWord (s : State) (_nbits w : Nat) : State := s.placeAtPc (BitVec.ofNat 16 w)

end Sys2Proof.Machine
end

