-- ==== Sys2Proof/Machine/HostInterface.lean ====
section
/-! DEFINITION. What the host does with an engine: run it to its end (60_exceptions.md R123, R125) and take a snapshot at
one of five levels (R124). Construction is in Load.lean. -/

namespace Sys2Proof.Machine

/-- At most `fuel` instruction cycles; the run stops where there is no further step. -/
def runFor (fuel : Nat) (s : State) : State :=
  match fuel with
  | 0 => s
  | k + 1 =>
    match step s with
    | .next t => runFor k t
    | .fault _ => s
    | .refused _ => s

/-- The most cycles a run can have: every cycle adds at least `fetchTicks + decodeTicks` ticks, and the runaway guard stops
the run at the ceiling (R103, R137). -/
def maxCycles : Nat := cycleCeiling / (fetchTicks + decodeTicks)

/-- "a single blocking run operation that executes until halted" (R123): the state at the end of the run. -/
def run (s : State) : State := runFor maxCycles s

/-- What the run returns: HALT_REASON (R123, R125). -/
def runReason (s : State) : HaltReason := (run s).haltReason

/-- The five verbosity levels of the snapshot (R124). -/
inductive Verbosity where
  | level1
  | level2
  | level3
  | level4
  | level5
deriving DecidableEq, Repr

/-- A level's number. -/
def Verbosity.number : Verbosity → Nat
  | .level1 => 1
  | .level2 => 2
  | .level3 => 3
  | .level4 => 4
  | .level5 => 5

/-- The registers level 2 adds. -/
structure RegisterView where
  AC : Word
  AR : Addr
  DR : Word
  IR : Word
  PC : Addr
  TR : Word
  INPR : Byte
  OUTR : Byte
deriving DecidableEq, Repr

/-- The flags level 3 adds (R124). -/
structure FlagView where
  S : Bool
  I : Bool
  E : Bool
  R : Bool
  IEN : Bool
  FGI : Bool
  FGO : Bool
deriving DecidableEq, Repr

/-- A snapshot; a part its level does not show is `none`. -/
structure Snapshot where
  instruction : Option Instr
  family : Option Family
  registers : Option RegisterView
  flags : Option FlagView
  opcode : Option (BitVec 3)
  cycles : Option Nat
  usedCells : Option (List (Nat × Word))
deriving DecidableEq, Repr

/-- `v` when `shown` holds. -/
def shownIf {α : Type} (shown : Bool) (v : α) : Option α := if shown then some v else none

/-- The "current instruction" of level 1: what IR decodes to, `none` for an illegal word. DEDUCED, log 18. -/
def State.currentInstruction (s : State) : Option Instr := (decode s.config s.IR).toOption

/-- The state-snapshot query (R124): it reads the state and changes nothing. "the host's snapshot shows" D too (10_state.md
R34), which R124's table puts at no level; level 3, where its companion I stands, is this model's choice (DESIGN CHOICE,
log 31). -/
def State.snapshot (level : Verbosity) (s : State) : Snapshot where
  instruction := s.currentInstruction
  family := s.currentInstruction.map Instr.family
  registers := shownIf (2 ≤ level.number) ⟨s.AC, s.AR, s.DR, s.IR, s.PC, s.TR, s.INPR, s.OUTR⟩
  flags := shownIf (3 ≤ level.number) ⟨s.S, s.I, s.E, s.R, s.IEN, s.FGI, s.FGO⟩
  opcode := shownIf (3 ≤ level.number) s.D
  cycles := shownIf (4 ≤ level.number) s.CYC
  usedCells := shownIf (5 ≤ level.number) (s.used.map fun a => (a, Memory.lookup s.mem a))

end Sys2Proof.Machine
end

