-- ==== Sys2Proof/Safety.lean ====
section
/-! DEFINITION. What counts as a sound state and a safe run, in the terms the statements use. -/

namespace Sys2Proof.Machine

/-- The precondition of an instruction cycle (40_instruction_cycle.md R66): phase = FETCH, S = 1, R = 0. -/
def State.AtBoundary (s : State) : Prop := s.phase = .fetch ∧ s.S = true ∧ s.R = false

/-- What DECODE makes of the word the next FETCH reads (30_encoding.md R61). -/
def State.fetched (s : State) : Except Reject Instr := decode s.config (s.mem.read s.PC)

/-- The cycle totals of 70_reset_and_hazards.md R137, written out: FETCH, DECODE, indirection and EXECUTE, without the 3
ticks of an interrupt entry. -/
def cycleTotal (c : Config) : Instr → Nat
  | .and indirect _ | .add indirect _ | .lda indirect _ | .bsa indirect _ => if indirect then 6 else 5
  | .sta indirect _ | .bun indirect _ => if indirect then 5 else 4
  | .isz indirect _ => if indirect then 7 else 6
  | .cla | .cle | .cma | .cme | .cir | .cil | .inc | .spa | .sna | .sze => 4
  | .sza => 3 + c.szaTicks
  | .hlt => 3 + c.hltTicks
  | .inp | .out | .ski | .sko | .ion | .iof | .rti => 4

/-- Between cycles of a run (10_state.md R28, R31, R36; 60_exceptions.md R103): S = 1, phase FETCH, HALT_REASON RUNNING, and
the counter below the ceiling. -/
def State.Running (s : State) : Prop :=
  s.S = true ∧ s.phase = .fetch ∧ s.haltReason = .running ∧ s.CYC < cycleCeiling

/-- After a run (60_exceptions.md R100): S = 0, phase HALTED and a HALT_REASON that says why. -/
def State.Ended (s : State) : Prop :=
  s.S = false ∧ s.phase = .halted ∧ s.haltReason ≠ .running

/-- What holds of the state at every instruction-cycle boundary of every run of an engine with admissible parameters:
memory and the used set keep their canonical form, R = 0 (R28), the event cursor does not pass the script's end (R33), the
run is going on or has ended, and the counter is at most 609 (R103). -/
structure State.Inv (s : State) : Prop where
  config : s.config.wf = true
  mem : s.mem.wf
  used : s.used.wf
  r : s.R = false
  evq : s.EVQ ≤ s.config.inputEvents.length
  run : s.Running ∨ s.Ended
  cyc : s.CYC ≤ 609

/-- A safe run from `s` (60_exceptions.md R103, R105): within `n` cycles it has ended, by HLT, a decode failure or the
runaway guard, with no fault on the way. -/
def State.EndsWithin (n : Nat) (s : State) : Prop :=
  ∃ k ≤ n, ∃ t, Sys2Proof.core.run k s = .next t ∧ t.Ended

end Sys2Proof.Machine
end

