-- ==== Sys2Proof/Certificates/Slice0/Obligations.lean ====
section
/-! DEFINITION. The statements about the model, one definition each. Where a statement rests on one of the spec's own
decisions (D<n>), on an inference the spec marks as derived, or on a choice of this model's (log <n>), its docstring says
so. A statement "exec i s = .next {…}" is the instruction's result, its frame (every field not named keeps its value, memory
included) and its completion in every state at once. -/

open Sys2Proof Sys2Proof.Machine

/-! Encoding -/

/-- Words written out from the encoding tables decode to the instructions they stand for. The opcode numbers and selectors
are the spec's decisions D3 to D6 (log 10, 11), but for HLT's word 0x7001, which its source gives. -/
def Obligations.SampleWordsDecodeAsTheTablesSay : Prop :=
  ∀ c : Config,
    decode c 0b1001000000100000 = .ok (.add true 0x020) ∧ decode c 0b0101000000100000 = .ok (.bsa false 0x020) ∧
    decode c 0b0111000000000001 = .ok .hlt ∧ decode c 0b0111000010000000 = .ok .cir ∧
    decode c 0b1111100000000000 = .ok .inp ∧ decode defaultConfig 0b1111000000100000 = .ok .rti ∧
    decode c 0b0111000000000011 = .error (.registerReferenceSelector 0x003) ∧
    decode c 0b1111000000000000 = if c.rtiSelector = 0 then .ok .rti else .error (.inputOutputSelector 0x000)

/-- Every well-formed instruction, with every operand, is what its word decodes to. Rests on D3 to D6 (log 10, 11). -/
def Obligations.DecodeOfEncodeIsTheInstruction : Prop :=
  ∀ (c : Config) (i : Instr), i.wf c = true → decode c (encode c i) = .ok i

/-- Every word has at most one meaning: a word that decodes to an instruction is that instruction's word. Rests on D3 to D6
(log 10, 11). -/
def Obligations.EncodeOfDecodeIsTheWord : Prop :=
  ∀ (c : Config) (w : Word) (i : Instr), decode c w = .ok i → encode c i = w

/-- R58: a word with D = 7 and I = 0 names an instruction exactly when one of its bits 11..0 is set. -/
def Obligations.RegisterReferenceWordLegalIffOneBitSet : Prop :=
  ∀ (c : Config) (sel : Addr),
    (∃ i, decode c (0#1 ++ 7#3 ++ sel) = .ok i) ↔ (List.finRange 12).countP (fun k => sel[k]) = 1

/-- The illegal words are exactly the D = 7 words whose selector is not one-hot (I = 0) or is none of the seven (I = 1).
The selector values are decisions D4 to D6 (log 10, 11). -/
def Obligations.IllegalWordsAreExactlyTheBadSelectors : Prop :=
  ∀ (c : Config) (w : Word),
    (∃ r, decode c w = .error r) ↔
      w.extractLsb 14 12 = 7#3 ∧
        ((w[15] = false ∧ (List.finRange 12).countP (fun k => (w.extractLsb 11 0)[k]) ≠ 1) ∨
         (w[15] = true ∧ w.extractLsb 11 0 ∉ [0x800#12, 0x400#12, 0x200#12, 0x100#12, 0x080#12, 0x040#12, c.rtiSelector]))

/-! Reset and load -/

/-- R42: a word the image does not seed holds 0x7001, and fetching it ends the run by HLT. -/
def Obligations.UnloadedMemoryHoldsTheHltEncoding : Prop :=
  (∀ (c : Config) (image : List (Addr × Word)) (p a : Addr), (∀ entry ∈ image, entry.1 ≠ a) →
      (State.construct c image (some p)).mem.read a = 0x7001) ∧
  (∀ s : State, s.AtBoundary → s.mem.read s.PC = 0x7001 →
      ∃ t, step s = .next t ∧ t.S = false ∧ t.haltReason = .hltExecuted)

/-- The image is written in order, a later pair over an earlier one: decision D24 (log 28). -/
def Obligations.LaterImageEntryWins : Prop :=
  ∀ (c : Config) (image : List (Addr × Word)) (p a b : Addr) (v : Word),
    (State.construct c (image ++ [(a, v)]) (some p)).mem.read b =
      if b = a then v else (State.construct c image (some p)).mem.read b

/-- A valid load leaves the engine at START_PC, running, with every register and flag at its reset value. The zeros are the
spec's decision D1 (log 4), FGO_RESET its decision D2; `State.reset`'s start 0x000, empty image and default parameters are
this model's choice (log 2, 3). -/
def Obligations.ConstructionStartsARunAtStartPc : Prop :=
  (∀ (c : Config) (image : List (Addr × Word)) (p : Addr),
    State.construct c image (some p) =
      { AC := 0, AR := 0, DR := 0, IR := 0, PC := p, TR := 0, INPR := 0, OUTR := 0, S := true, I := false, E := false,
        R := false, IEN := false, FGI := false, FGO := c.fgoReset, D := 0, CYC := 0, EVQ := 0, phase := .fetch,
        haltReason := .running, mem := (State.construct c image (some p)).mem,
        used := (State.construct c image (some p)).used, config := c }) ∧
  State.reset = State.construct defaultConfig [] (some 0x000)

/-- R104: on the invalid-image signal no cycle runs, S stays 0 and HALT_REASON = NOT_STARTED. -/
def Obligations.InvalidImageNeverStarts : Prop :=
  ∀ (c : Config) (image : List (Addr × Word)),
    (State.construct c image none).S = false ∧ (State.construct c image none).haltReason = .notStarted ∧
    (∀ t, step (State.construct c image none) ≠ .next t) ∧
    run (State.construct c image none) = State.construct c image none

/-! The instruction cycle -/

/-- R68: "AR ← PC; IR ← Memory[AR]; PC ← PC + 1; consumes 2 cycle ticks", PC on 12 bits. The phase is log 8's. -/
def Obligations.FetchReadsTheWordAtPcAndAdvances : Prop :=
  ∀ s : State,
    s.fetch = { s with AR := s.PC, IR := s.mem.read s.PC, PC := s.PC + 1, CYC := s.CYC + 2, phase := s.fetch.phase } ∧
    (s.PC = 0xFFF → s.fetch.PC = 0x000)

/-- From a cycle boundary, when the fetched word is an instruction, the step is its `exec` from the state FETCH and DECODE
leave (given in full), followed, unless it cleared S, by INTERRUPT_CHECK and the runaway guard. The order is R66's, with
the spec's decisions D11 and D17; the phase between is log 8's. -/
def Obligations.StepRunsTheDecodedInstruction : Prop :=
  ∀ (s : State) (i : Instr), s.AtBoundary → decode s.config (s.mem.read s.PC) = .ok i →
    s.fetch.decodePhase =
      { s with IR := s.mem.read s.PC, D := (s.mem.read s.PC).extractLsb 14 12, I := (s.mem.read s.PC)[15],
               AR := (s.mem.read s.PC).extractLsb 11 0, PC := s.PC + 1, CYC := s.CYC + 3, phase := .execute } ∧
    step s =
      (match exec i s.fetch.decodePhase with
       | .next u => .next (if u.S then u.interruptCheck.runawayCheck else u)
       | .fault r => .fault r
       | .refused r => .refused r)

/-- The effective address: the address field itself, or with I = 1 the low 12 bits of the word it points to, whatever that
word's upper bits are: one level, decision D26 (log 22). -/
def Obligations.EffectiveAddressDirectAndIndirect : Prop :=
  ∀ (s : State) (addr : Addr),
    s.effectiveAddress false addr = addr ∧
    (s.effectiveAddress true addr).toNat = (s.mem.read addr).toNat % 4096

/-! Memory-reference instructions. Each statement says the word (the opcode numbers are decision D3's, log 10) and the
result; the ticks are the rule's EXECUTE ticks, and one more for the indirect form (R70). -/

/-- R73. -/
def Obligations.AndMasksAccumulatorWithMemory : Prop :=
  ∀ (s : State) (indirect : Bool) (addr : Addr),
    decode s.config (BitVec.ofBool indirect ++ 0#3 ++ addr) = .ok (.and indirect addr) ∧
    exec (.and indirect addr) s = .next { s with
      AR := s.effectiveAddress indirect addr
      DR := s.mem.read (s.effectiveAddress indirect addr)
      AC := s.AC &&& s.mem.read (s.effectiveAddress indirect addr)
      CYC := s.CYC + (if indirect then 3 else 2) }

/-- R74: AC is the sum modulo 2^16 and E is 1 exactly when the unsigned sum needs its 17th bit. -/
def Obligations.AddSumsAndSetsCarryFromUnsignedSum : Prop :=
  ∀ (s : State) (indirect : Bool) (addr : Addr),
    decode s.config (BitVec.ofBool indirect ++ 1#3 ++ addr) = .ok (.add indirect addr) ∧
    exec (.add indirect addr) s = .next { s with
      AR := s.effectiveAddress indirect addr
      DR := s.mem.read (s.effectiveAddress indirect addr)
      AC := s.AC + s.mem.read (s.effectiveAddress indirect addr)
      E := decide (65536 ≤ s.AC.toNat + (s.mem.read (s.effectiveAddress indirect addr)).toNat)
      CYC := s.CYC + (if indirect then 3 else 2) }

/-- R75. -/
def Obligations.LdaLoadsAccumulatorThroughDr : Prop :=
  ∀ (s : State) (indirect : Bool) (addr : Addr),
    decode s.config (BitVec.ofBool indirect ++ 2#3 ++ addr) = .ok (.lda indirect addr) ∧
    exec (.lda indirect addr) s = .next { s with
      AR := s.effectiveAddress indirect addr
      DR := s.mem.read (s.effectiveAddress indirect addr)
      AC := s.mem.read (s.effectiveAddress indirect addr)
      CYC := s.CYC + (if indirect then 3 else 2) }

/-- R76: the word at the effective address becomes AC; every other word and every register but AR keeps its value. -/
def Obligations.StaStoresAccumulator : Prop :=
  ∀ (s : State) (indirect : Bool) (addr : Addr),
    decode s.config (BitVec.ofBool indirect ++ 3#3 ++ addr) = .ok (.sta indirect addr) ∧
    ∃ t, exec (.sta indirect addr) s = .next t ∧
      t = { s with AR := s.effectiveAddress indirect addr, CYC := s.CYC + (if indirect then 2 else 1),
                   mem := t.mem, used := t.used } ∧
      ∀ a, t.mem.read a = if a = s.effectiveAddress indirect addr then s.AC else s.mem.read a

/-- R77. -/
def Obligations.BunJumpsToEffectiveAddress : Prop :=
  ∀ (s : State) (indirect : Bool) (addr : Addr),
    decode s.config (BitVec.ofBool indirect ++ 4#3 ++ addr) = .ok (.bun indirect addr) ∧
    exec (.bun indirect addr) s = .next { s with
      AR := s.effectiveAddress indirect addr
      PC := s.effectiveAddress indirect addr
      CYC := s.CYC + (if indirect then 2 else 1) }

/-- R78: the word at the effective address becomes the widened PC, and control goes to the address after it, on 12 bits.
`widenPC` is R15's, with the parameter PC_WIDEN (log 13). -/
def Obligations.BsaStoresReturnAddressAndBranches : Prop :=
  ∀ (s : State) (indirect : Bool) (addr : Addr),
    decode s.config (BitVec.ofBool indirect ++ 5#3 ++ addr) = .ok (.bsa indirect addr) ∧
    ∃ t, exec (.bsa indirect addr) s = .next t ∧
      t = { s with AR := s.effectiveAddress indirect addr + 1, PC := s.effectiveAddress indirect addr + 1,
                   CYC := s.CYC + (if indirect then 3 else 2), mem := t.mem, used := t.used } ∧
      ∀ a, t.mem.read a =
        if a = s.effectiveAddress indirect addr then widenPC s.config s.PC else s.mem.read a

/-- R79: the word at the effective address and DR become its successor, and PC skips exactly when the word was 0xFFFF. -/
def Obligations.IszIncrementsMemoryAndSkipsOnZero : Prop :=
  ∀ (s : State) (indirect : Bool) (addr : Addr),
    decode s.config (BitVec.ofBool indirect ++ 6#3 ++ addr) = .ok (.isz indirect addr) ∧
    ∃ t, exec (.isz indirect addr) s = .next t ∧
      t = { s with AR := s.effectiveAddress indirect addr
                   DR := s.mem.read (s.effectiveAddress indirect addr) + 1
                   PC := if s.mem.read (s.effectiveAddress indirect addr) = 0xFFFF then s.PC + 1 else s.PC
                   CYC := s.CYC + (if indirect then 4 else 3), mem := t.mem, used := t.used } ∧
      ∀ a, t.mem.read a =
        if a = s.effectiveAddress indirect addr then s.mem.read (s.effectiveAddress indirect addr) + 1
        else s.mem.read a

/-! Register-reference instructions -/

/-- R80, R82, R86: CLA, CMA and INC write AC only; E in particular is unchanged. The words are decision D4's (log 10). -/
def Obligations.ClearComplementIncrementAccumulator : Prop :=
  ∀ s : State,
    (decode s.config 0x7800 = .ok .cla ∧ exec .cla s = .next { s with AC := 0, CYC := s.CYC + 1 }) ∧
    (decode s.config 0x7200 = .ok .cma ∧ exec .cma s = .next { s with AC := ~~~s.AC, CYC := s.CYC + 1 }) ∧
    (decode s.config 0x7020 = .ok .inc ∧ exec .inc s = .next { s with AC := s.AC + 1, CYC := s.CYC + 1 })

/-- R81, R83: CLE and CME write E only. The words are decision D4's (log 10). -/
def Obligations.ClearAndComplementCarry : Prop :=
  ∀ s : State,
    (decode s.config 0x7400 = .ok .cle ∧ exec .cle s = .next { s with E := false, CYC := s.CYC + 1 }) ∧
    (decode s.config 0x7100 = .ok .cme ∧ exec .cme s = .next { s with E := !s.E, CYC := s.CYC + 1 })

/-- R84: AC[15] takes E, AC[14:0] takes AC[15:1], E takes AC[0]. The word is decision D4's (log 10). -/
def Obligations.CirRotatesRightThroughCarry : Prop :=
  ∀ s : State,
    decode s.config 0x7080 = .ok .cir ∧
    exec .cir s = .next { s with AC := BitVec.ofBool s.E ++ s.AC.extractLsb 15 1, E := s.AC[0], CYC := s.CYC + 1 }

/-- R85: AC[15:1] takes AC[14:0], AC[0] takes E, E takes AC[15]. The word is decision D4's (log 10). -/
def Obligations.CilRotatesLeftThroughCarry : Prop :=
  ∀ s : State,
    decode s.config 0x7040 = .ok .cil ∧
    exec .cil s = .next { s with AC := s.AC.extractLsb 14 0 ++ BitVec.ofBool s.E, E := s.AC[15], CYC := s.CYC + 1 }

/-- CIL undoes CIR and CIR undoes CIL: an inference the spec marks as derived. -/
def Obligations.CilAndCirUndoEachOther : Prop :=
  ∀ s : State,
    exec .cir s = .next { s with AC := rotateRightAc s.AC s.E, E := rotateRightE s.AC, CYC := s.CYC + 1 } ∧
    (∀ t, exec .cir s = .next t → exec .cil t = .next { s with CYC := s.CYC + 2 }) ∧
    (∀ t, exec .cil s = .next t → exec .cir t = .next { s with CYC := s.CYC + 2 })

/-- R87, R90: SPA skips exactly when AC read as signed is not negative, SZE exactly when E = 0; nothing else changes. The
words are decision D4's (log 10). -/
def Obligations.SpaAndSzeSkipOnTheirConditions : Prop :=
  ∀ s : State,
    (decode s.config 0x7010 = .ok .spa ∧
      exec .spa s = .next { s with PC := if 0 ≤ s.AC.toInt then s.PC + 1 else s.PC, CYC := s.CYC + 1 }) ∧
    (decode s.config 0x7002 = .ok .sze ∧
      exec .sze s = .next { s with PC := if s.E = false then s.PC + 1 else s.PC, CYC := s.CYC + 1 })

/-- SNA skips exactly when AC read as signed is negative: decision D9 (log 15). -/
def Obligations.SnaSkipsOnNegativeAccumulator : Prop :=
  ∀ s : State,
    decode s.config 0x7008 = .ok .sna ∧
    exec .sna s = .next { s with PC := if s.AC.toInt < 0 then s.PC + 1 else s.PC, CYC := s.CYC + 1 }

/-- SZA skips exactly when AC = 0x0000, in SZA_TICKS ticks: the tick count is decision D8's parameter (log 21). -/
def Obligations.SzaSkipsOnZeroAccumulator : Prop :=
  ∀ s : State,
    decode s.config 0x7004 = .ok .sza ∧
    exec .sza s = .next { s with PC := if s.AC = 0 then s.PC + 1 else s.PC, CYC := s.CYC + s.config.szaTicks }

/-- HLT clears S, records HLT_EXECUTED and enters HALTED, in HLT_TICKS ticks: decision D7's parameter (log 21), and the
enumeration of decision D16 (log 27). -/
def Obligations.HltClearsRunFlag : Prop :=
  ∀ s : State,
    decode s.config 0x7001 = .ok .hlt ∧
    exec .hlt s = .next { s with S := false, phase := .halted, haltReason := .hltExecuted,
                                 CYC := s.CYC + s.config.hltTicks }

/-! Input/output instructions -/

/-- R92: bits 7..0 of AC take INPR, bits 15..8 keep their value, FGI is cleared. The word is decision D5's (log 10). -/
def Obligations.InpReadsInputByteAndClearsFgi : Prop :=
  ∀ s : State,
    decode s.config 0xF800 = .ok .inp ∧
    exec .inp s = .next { s with AC := s.AC.extractLsb 15 8 ++ s.INPR, FGI := false, CYC := s.CYC + 1 }

/-- R93: OUTR takes bits 7..0 of AC, FGO is cleared. The word is decision D5's (log 10). -/
def Obligations.OutWritesLowByteAndClearsFgo : Prop :=
  ∀ s : State,
    decode s.config 0xF400 = .ok .out ∧
    exec .out s = .next { s with OUTR := s.AC.extractLsb 7 0, FGO := false, CYC := s.CYC + 1 }

/-- R94, R95: SKI skips exactly when FGI = 1, SKO exactly when FGO = 1; nothing else changes. The words are decision D5's
(log 10). -/
def Obligations.SkiAndSkoSkipOnTheirFlags : Prop :=
  ∀ s : State,
    (decode s.config 0xF200 = .ok .ski ∧
      exec .ski s = .next { s with PC := if s.FGI = true then s.PC + 1 else s.PC, CYC := s.CYC + 1 }) ∧
    (decode s.config 0xF100 = .ok .sko ∧
      exec .sko s = .next { s with PC := if s.FGO = true then s.PC + 1 else s.PC, CYC := s.CYC + 1 })

/-- R96, R97: ION sets IEN and IOF clears it, and the INTERRUPT_CHECK that follows sees the new value: with FGI = 1 it takes
the interrupt after ION, saving the address after it, and takes none after IOF. The words are decision D5's (log 10). -/
def Obligations.IonAndIofSetAndClearInterruptEnable : Prop :=
  ∀ s : State,
    (decode s.config 0xF080 = .ok .ion ∧ exec .ion s = .next { s with IEN := true, CYC := s.CYC + 1 } ∧
      (s.FGI = true → ∀ t, exec .ion s = .next t →
        t.interruptCheck.PC = 0x001 ∧ t.interruptCheck.mem.read 0x000 = widenPC s.config s.PC)) ∧
    (decode s.config 0xF040 = .ok .iof ∧ exec .iof s = .next { s with IEN := false, CYC := s.CYC + 1 } ∧
      ∀ t, exec .iof s = .next t → t.interruptCheck.PC = s.PC ∧ t.interruptCheck.mem = s.mem)

/-- R98: RTI takes PC from the low 12 bits of M[0], sets IEN and AR <- 0x000; nothing else changes. Its word is 0xF000 +
RTI_SELECTOR for every admissible selector (decision D6, log 11). -/
def Obligations.RtiReturnsThroughAddressZero : Prop :=
  ∀ s : State,
    (s.config.wf = true → decode s.config (0xF000 + s.config.rtiSelector.setWidth 16) = .ok .rti) ∧
    exec .rti s = .next { s with AR := 0x000, PC := (s.mem.read 0x000).extractLsb 11 0, IEN := true,
                                 CYC := s.CYC + 1 }

/-! Widening, interrupts, the input device -/

/-- A 12-bit value in a 16-bit word: with SEXT a value from 0x800 on gets 0xF in bits 15..12, with ZEXT none does, and the
low 12 bits give the value back. Inference from the register model, decision D13 (log 13). -/
def Obligations.WidenedPcKeepsItsLowTwelveBits : Prop :=
  ∀ (c : Config) (p : Addr),
    (c.pcWiden = .sext → (widenPC c p).toNat = if 0x800 ≤ p.toNat then 0xF000 + p.toNat else p.toNat) ∧
    (c.pcWiden = .zext → (widenPC c p).toNat = p.toNat) ∧
    addressField (widenPC c p) = p

/-- R109: the interrupt-service sequence: R = 1 after its first and second ticks, and at its end PC = 0x001, M[0] and TR the
widened PC, AR = 0x000, IEN = R = 0, three ticks, and nothing else changed (AC, E and FGI among it). `widenPC` is R15's. -/
def Obligations.InterruptEntrySavesPcAndGoesToAddressOne : Prop :=
  ∀ s : State,
    s.entrySavePc.R = true ∧ s.entrySavePc.entryStoreReturn.R = true ∧
    s.interruptEntry = { s with AR := 0x000, TR := widenPC s.config s.PC, PC := 0x001, IEN := false, R := false,
                                CYC := s.CYC + 3, mem := s.interruptEntry.mem, used := s.interruptEntry.used } ∧
    ∀ a, s.interruptEntry.mem.read a = if a = 0x000 then widenPC s.config s.PC else s.mem.read a

/-- In a cycle, the interrupt is taken if and only if IEN = 1 and FGI = 1 after EXECUTE (`u`), and never after HLT (the one
instruction that clears S) or a decode failure (R108), with the effect of R109's sequence. The cycle's end `t` is given in
full, but for INPR, FGI and EVQ, which the input device may write, and S, the phase and HALT_REASON, which the runaway guard
may: what each writes is stated in `InputEventDeliveredWhenReachedAndFree` and `RunawayGuardStopsAtTheCeiling`. That nothing
at all follows HLT or a decode failure, whose 3 ticks stay counted, is R101's and R102's by decisions D11 and D17 (log 19).
The upper bits of the saved PC are decision D13's (log 13). -/
def Obligations.InterruptTakenExactlyWhenEnabledAndReady : Prop :=
  (∀ (s t u : State) (i : Instr), s.AtBoundary → s.fetched = .ok i → exec i s.fetch.decodePhase = .next u →
    step s = .next t →
    (u.S = false ↔ i = .hlt) ∧
    (u.S = true → u.IEN = true ∧ u.FGI = true →
      t = { u with PC := 0x001, AR := 0x000, IEN := false, TR := widenPC u.config u.PC, CYC := u.CYC + 3,
                   mem := t.mem, used := t.used, INPR := t.INPR, FGI := t.FGI, EVQ := t.EVQ,
                   S := t.S, phase := t.phase, haltReason := t.haltReason } ∧
      ∀ a, t.mem.read a = if a = 0x000 then widenPC u.config u.PC else u.mem.read a) ∧
    (u.S = true → ¬ (u.IEN = true ∧ u.FGI = true) →
      t = { u with INPR := t.INPR, FGI := t.FGI, EVQ := t.EVQ,
                   S := t.S, phase := t.phase, haltReason := t.haltReason }) ∧
    (u.S = false → t = u)) ∧
  (∀ (s t : State) (r : Reject), s.AtBoundary → s.fetched = .error r → step s = .next t →
    t = { s.fetch.decodePhase with S := false, phase := .halted, haltReason := t.haltReason })

/-- R107: over any step, FGI is cleared by INP only and set by the input device only; IEN is set by ION and RTI only and
cleared by IOF and by interrupt entry only; and FGO has no part in INTERRUPT_CHECK. -/
def Obligations.InterruptFlagsHaveOnlyTheirWriters : Prop :=
  (∀ s t : State, step s = .next t →
    (s.FGI = true → t.FGI = false → s.fetched = .ok .inp) ∧
    (s.FGI = false → t.FGI = true → t.EVQ = s.EVQ + 1) ∧
    (s.IEN = false → t.IEN = true → s.fetched = .ok .ion ∨ s.fetched = .ok .rti) ∧
    (s.IEN = true → t.IEN = false → s.fetched = .ok .iof ∨ (t.PC = 0x001 ∧ t.AR = 0x000 ∧ t.mem.read 0x000 = t.TR))) ∧
  (∀ (s : State) (b : Bool), { s with FGO := b }.interruptCheck = { s.interruptCheck with FGO := b })

/-- R33: over any step the device either delivers nothing or consumes the one event at its cursor. -/
def Obligations.InputEventsAreConsumedOnceInOrder : Prop :=
  ∀ s t : State, step s = .next t →
    (t.EVQ = s.EVQ ∧ t.INPR = s.INPR) ∨
    (t.EVQ = s.EVQ + 1 ∧ ∃ event, s.config.inputEvents[s.EVQ]? = some event ∧ t.INPR = event.value ∧ t.FGI = true)

/-- At the end of a cycle that did not halt, the event at the cursor is delivered when its trigger is reached (CYC >=
trigger, CYC after an entry's ticks) and FGI is 0 after EXECUTE, and otherwise nothing is: decision D12 (log 14). -/
def Obligations.InputEventDeliveredWhenReachedAndFree : Prop :=
  ∀ (s t u : State) (i : Instr), s.AtBoundary → s.fetched = .ok i → exec i s.fetch.decodePhase = .next u →
    u.S = true → step s = .next t →
    (∀ event, s.config.inputEvents[s.EVQ]? = some event → event.trigger ≤ t.CYC → u.FGI = false →
      t.INPR = event.value ∧ t.FGI = true ∧ t.EVQ = s.EVQ + 1) ∧
    ((∀ event, s.config.inputEvents[s.EVQ]? = some event → t.CYC < event.trigger ∨ u.FGI = true) →
      t.INPR = s.INPR ∧ t.FGI = u.FGI ∧ t.EVQ = s.EVQ)

/-! Terminations -/

/-- A step of a running engine ends as RUNAWAY exactly when its word is an instruction other than HLT and CYC is then at
least 600; S stays 1 exactly while HALT_REASON is RUNNING. From every cycle boundary, an instruction other than HLT leads to
HALTED at 600 ticks, and below them to the next FETCH with HALT_REASON unchanged. Decisions D10 and D11, conflict C4
(log 19). -/
def Obligations.RunawayGuardStopsAtTheCeiling : Prop :=
  (∀ s t : State, s.Running → s.R = false → step s = .next t →
    (t.haltReason = .runaway ↔ (∃ i, s.fetched = .ok i ∧ i ≠ .hlt) ∧ 600 ≤ t.CYC) ∧
    (t.S = true ↔ t.haltReason = .running) ∧ (t.S = false ↔ t.phase = .halted)) ∧
  (∀ (s t : State) (i : Instr), s.AtBoundary → s.fetched = .ok i → i ≠ .hlt → step s = .next t →
    (600 ≤ t.CYC → t.S = false ∧ t.phase = .halted ∧ t.haltReason = .runaway) ∧
    (t.CYC < 600 → t.S = true ∧ t.phase = .fetch ∧ t.haltReason = s.haltReason))

/-- A cycle that fetches 0x7001 ends the run there, with no interrupt check, no delivery and no runaway check, whatever IEN,
FGI and CYC are. Decisions D7 and D11 (log 19, 21). -/
def Obligations.HltCycleEndsTheRunAtOnce : Prop :=
  ∀ s : State, s.AtBoundary → s.mem.read s.PC = 0x7001 →
    step s = .next { s with IR := 0x7001, AR := 0x001, D := 7, I := false, PC := s.PC + 1,
                            CYC := s.CYC + 3 + s.config.hltTicks, S := false, phase := .halted,
                            haltReason := .hltExecuted }

/-- A cycle that fetches an illegal word ends the run as DECODE_FAILURE after 3 ticks, with IR the word, AR its bits 11..0,
D = 7, I its bit 15, and nothing else changed. Decisions D11, D16 and D17 (log 19, 27). -/
def Obligations.IllegalWordEndsTheRun : Prop :=
  ∀ (s : State) (r : Reject), s.AtBoundary → s.fetched = .error r →
    step s = .next { s with IR := s.mem.read s.PC, AR := (s.mem.read s.PC).extractLsb 11 0, D := 7,
                            I := (s.mem.read s.PC)[15], PC := s.PC + 1, CYC := s.CYC + 3, S := false,
                            phase := .halted, haltReason := .decodeFailure }

/-- A halted engine has no step, and a step never sets S from 0 to 1. That a step there answers the fault `halted` is this
model's form of the spec's "stuck" (item U11; log 20). -/
def Obligations.HaltedEngineTakesNoStep : Prop :=
  (∀ s : State, s.phase = .halted ∨ s.S = false → step s = .fault (.halted s.haltReason)) ∧
  (∀ s t : State, step s = .next t → s.S = true) ∧
  (∀ (s : State) (n : Nat), s.phase = .halted ∨ s.S = false → runFor n s = s)

/-! Whole-machine rules -/

/-- Each register has only its writers, over a whole step: AC (INP on bits 7..0 only), DR, OUTR, FGO (OUT, which clears it;
decision D22, log 23), TR (interrupt entry), IR (FETCH); the parameters have none. Read off the rules of the instructions:
the spec's table of writers cites them. -/
def Obligations.RegistersChangeOnlyByTheirWriters : Prop :=
  ∀ (s t : State) (i : Instr), s.fetched = .ok i → step s = .next t →
    (t.AC = s.AC ∨ i ∈ [.cla, .cma, .cir, .cil, .inc, .inp] ∨ ∃ m a, i ∈ [.and m a, .add m a, .lda m a]) ∧
    (i = .inp → t.AC.extractLsb 15 8 = s.AC.extractLsb 15 8) ∧
    (t.DR = s.DR ∨ ∃ m a, i ∈ [.and m a, .add m a, .lda m a, .isz m a]) ∧
    (t.OUTR = s.OUTR ∨ i = .out) ∧
    (t.FGO = s.FGO ∨ (i = .out ∧ t.FGO = false)) ∧
    (t.TR = s.TR ∨ (t.PC = 0x001 ∧ t.AR = 0x000 ∧ t.IEN = false)) ∧
    t.IR = s.mem.read s.PC ∧
    t.config = s.config

/-- E changes only in a cycle of ADD, CLE, CME, CIR or CIL: an inference the spec marks as derived. -/
def Obligations.CarryChangesOnlyByItsFiveWriters : Prop :=
  ∀ s t : State, step s = .next t →
    t.E = s.E ∨ (∃ i, s.fetched = .ok i ∧ (i ∈ [.cle, .cme, .cir, .cil] ∨ ∃ m a, i = .add m a))

/-- A step changes no word of memory but the one at the effective address of STA, BSA or ISZ, and the one at address 0 when
it takes the interrupt: the spec's table of accesses, which it marks as derived. -/
def Obligations.StepStoresOnlyAtItsTargets : Prop :=
  ∀ (s t : State) (a : Addr), step s = .next t → t.mem.read a ≠ s.mem.read a →
    (∃ m x, (s.fetched = .ok (.sta m x) ∨ s.fetched = .ok (.bsa m x) ∨ s.fetched = .ok (.isz m x)) ∧
      a = s.effectiveAddress m x) ∨
    (a = 0x000 ∧ t.PC = 0x001 ∧ t.IEN = false ∧ t.mem.read 0x000 = t.TR)

/-- The tick total of every cycle: `cycleTotal` writes out the spec's table, 3 more with an interrupt entry, 3 on an illegal
word. The table is derived in the spec; SZA_TICKS and HLT_TICKS are parameters (log 21). -/
def Obligations.CycleTakesItsTableOfTicks : Prop :=
  (∀ (s t u : State) (i : Instr), s.AtBoundary → s.fetched = .ok i → exec i s.fetch.decodePhase = .next u →
    step s = .next t →
    t.CYC = s.CYC + cycleTotal s.config i + (if u.S = true ∧ u.IEN = true ∧ u.FGI = true then 3 else 0)) ∧
  (∀ (s t : State) (r : Reject), s.fetched = .error r → step s = .next t → t.CYC = s.CYC + 3)

/-- From every cycle boundary the step answers a next state: no instruction and no word faults. The absence of traps is
decision D16's reading (log 27). -/
def Obligations.EveryCycleCompletes : Prop :=
  ∀ s : State, s.AtBoundary → ∃ t, step s = .next t ∧ s.CYC + 3 ≤ t.CYC

/-! Invariants and runs -/

/-- `State.reset` meets the invariant. -/
def Obligations.InvariantHoldsAtReset : Prop := State.reset.Inv

/-- Every constructed engine with admissible parameters meets the invariant, whatever the image and the start value. -/
def Obligations.InvariantHoldsAfterConstruction : Prop :=
  ∀ (c : Config) (image : List (Addr × Word)) (start : Option Addr), c.wf = true →
    (State.construct c image start).Inv

/-- Every step keeps the invariant: canonical memory, R = 0 at the boundary, the cursor within the script, S, phase and
HALT_REASON in agreement, and CYC at most 609 (the last from decisions D8, D10 and the derived table of ticks). -/
def Obligations.StepKeepsTheInvariant : Prop :=
  ∀ s t : State, s.Inv → step s = .next t → t.Inv

/-- From every state that meets the invariant the run ends within 200 cycles, and `run` returns that end: 600 ticks at no
fewer than 3 a cycle. A running engine ends by HLT, a decode failure or the runaway guard; one that has ended stays as it is.
An inference from decisions D10 and D17 and the table of ticks. -/
def Obligations.EveryRunEndsWithinTwoHundredCycles : Prop :=
  ∀ s : State, s.Inv →
    s.EndsWithin 200 ∧ (run s).Ended ∧
    (s.Running →
      (∃ k ≤ 200, Sys2Proof.core.run k s = .next (run s)) ∧ runReason s ∈ [.hltExecuted, .decodeFailure, .runaway]) ∧
    (s.Ended → run s = s)

/-- Two canonical memories that read alike at every address are equal: memory as data has no more in it than its words
(log 1). -/
def Obligations.CanonicalMemoriesThatReadAlikeAreEqual : Prop :=
  ∀ m n : Memory, m.wf → n.wf → (∀ a : Addr, m.read a = n.read a) → m = n

/-! Idioms -/

/-- A BSA and then a BUN indirect through its address return to the address after the BSA, for both settings of PC_WIDEN:
the corner case of BUN, by decision D13 for the upper bits. -/
def Obligations.IndirectBunReturnsFromBsa : Prop :=
  ∀ (s : State) (addr : Addr),
    ∃ t u, exec (.bsa false addr) s = .next t ∧ t.PC = addr + 1 ∧
      exec (.bun true addr) t = .next u ∧ u.PC = s.PC ∧ u.AC = s.AC ∧ u.E = s.E

/-- RTI right after interrupt entry goes back to the saved PC and sets IEN, restoring and changing nothing else but AR: R109
and R98 together, decision D13 for the upper bits. -/
def Obligations.RtiUndoesInterruptEntry : Prop :=
  ∀ s : State,
    exec .rti s.interruptEntry =
      .next { s.interruptEntry with AR := 0x000, PC := s.PC, IEN := true, CYC := s.CYC + 4 }

/-- An RTI executed while FGI = 1 takes the interrupt again in the same cycle, and M[0] keeps the same return address: an
inference the spec marks as derived. -/
def Obligations.RtiWithInputReadyReentersTheHandler : Prop :=
  ∀ s : State, s.AtBoundary → s.fetched = .ok .rti → s.FGI = true →
    ∃ t, step s = .next t ∧ t.PC = 0x001 ∧ t.IEN = false ∧ t.FGI = true ∧
      addressField (t.mem.read 0x000) = addressField (s.mem.read 0x000) ∧
      t.CYC = s.CYC + 7

/-- A store to the address of the next instruction is what the next FETCH reads: an inference the spec marks as derived. -/
def Obligations.StoreIsSeenByTheNextFetch : Prop :=
  ∀ (s : State) (m : Bool) (x : Addr), s.AtBoundary → s.fetched = .ok (.sta m x) →
    s.effectiveAddress m x = s.PC + 1 → ¬ (s.IEN = true ∧ s.FGI = true) → s.CYC + 5 < 600 →
    ∃ t, step s = .next t ∧ t.AtBoundary ∧ t.fetch.IR = s.AC

/-! The register model and the host's view -/

/-- Wherever the machine writes a value wider than the register, the register keeps its low bits: the address field in
DECODE, the pointer word in indirect resolution, M[0] in RTI, the low byte in OUT, ADD's 17-bit sum; an increment past the
register's width wraps (PC in FETCH and in a skip, AR in BSA, AC in INC, DR in ISZ); and under SEXT a signed 12-bit PC is
written into TR modulo 2^16. The spec derives these from its register model; SEXT is decision D13's setting (log 13). -/
def Obligations.RegisterWriteTruncates : Prop :=
  ∀ (s : State) (indirect : Bool) (addr : Addr),
    s.decodePhase.AR.toNat = s.IR.toNat % 4096 ∧
    s.resolveIndirect.AR.toNat = (s.mem.read s.AR).toNat % 4096 ∧
    (∃ t, exec .rti s = .next t ∧ t.PC.toNat = (s.mem.read 0x000).toNat % 4096) ∧
    (∃ t, exec .out s = .next t ∧ t.OUTR.toNat = s.AC.toNat % 256) ∧
    (∃ t, exec (.add indirect addr) s = .next t ∧ t.AC.toNat = (s.AC.toNat + t.DR.toNat) % 65536) ∧
    s.fetch.PC.toNat = (s.PC.toNat + 1) % 4096 ∧
    (∃ t, exec .ski s = .next t ∧ t.PC.toNat = (s.PC.toNat + if s.FGI then 1 else 0) % 4096) ∧
    (∃ t, exec (.bsa indirect addr) s = .next t ∧
      t.AR.toNat = ((s.effectiveAddress indirect addr).toNat + 1) % 4096) ∧
    (∃ t, exec .inc s = .next t ∧ t.AC.toNat = (s.AC.toNat + 1) % 65536) ∧
    (∃ t, exec (.isz indirect addr) s = .next t ∧
      t.DR.toNat = ((s.mem.read (s.effectiveAddress indirect addr)).toNat + 1) % 65536) ∧
    (s.config.pcWiden = .sext → (s.interruptEntry.TR.toNat : Int) = s.PC.toInt % 65536)

/-- R44: the "has been written" flags are set by a write, at its address, and no step's result depends on them but they
themselves. -/
def Obligations.UsedFlagsAreForReportingOnly : Prop :=
  (∀ (s : State) (a b : Addr) (v : Word), b.toNat ∈ (s.writeMem a v).used ↔ b = a ∨ b.toNat ∈ s.used) ∧
  (∀ (s t : State) (u : UsedSet), step s = .next t →
    ∃ u', step { s with used := u } = .next { t with used := u' })

/-- Each snapshot level shows what the level before it shows and its own part, and nothing more. The lists are decision
D23's; the current instruction is what IR decodes to, this model's reading (DEDUCED, log 18), and D, which the spec says the
snapshot shows, stands at level 3 by this model's choice (log 31). -/
def Obligations.SnapshotShowsItsLevel : Prop :=
  ∀ s : State,
    let shown := (decode s.config s.IR).toOption
    let registers : RegisterView := ⟨s.AC, s.AR, s.DR, s.IR, s.PC, s.TR, s.INPR, s.OUTR⟩
    let flags : FlagView := ⟨s.S, s.I, s.E, s.R, s.IEN, s.FGI, s.FGO⟩
    s.snapshot .level1 = ⟨shown, shown.map Instr.family, none, none, none, none, none⟩ ∧
    s.snapshot .level2 = ⟨shown, shown.map Instr.family, some registers, none, none, none, none⟩ ∧
    s.snapshot .level3 = ⟨shown, shown.map Instr.family, some registers, some flags, some s.D, none, none⟩ ∧
    s.snapshot .level4 = ⟨shown, shown.map Instr.family, some registers, some flags, some s.D, some s.CYC, none⟩ ∧
    ∃ cells, s.snapshot .level5 = ⟨shown, shown.map Instr.family, some registers, some flags, some s.D, some s.CYC,
        some cells⟩ ∧
      cells.map Prod.fst = s.used ∧ ∀ a : Addr, ∀ v, (a.toNat, v) ∈ cells → v = s.mem.read a
end

