-- ==== Sys2Proof/Laws/Decode.lean ====
section
/-! SUPPORT. The fields of a word put together from its fields, and a word from its fields. -/

namespace Sys2Proof

@[simp] theorem opcodeField_instrWord (i : Bool) (d : BitVec 3) (a : Addr) : opcodeField (instrWord i d a) = d := by
  apply BitVec.eq_of_getLsbD_eq
  intro k hk
  simp only [opcodeField, instrWord, BitVec.getLsbD_extractLsb, BitVec.getLsbD_append]
  interval_cases k <;> simp

@[simp] theorem indirectField_instrWord (i : Bool) (d : BitVec 3) (a : Addr) : indirectField (instrWord i d a) = i := by
  simp only [indirectField, instrWord, BitVec.getLsbD_append]
  simp

@[simp] theorem addressField_instrWord (i : Bool) (d : BitVec 3) (a : Addr) : addressField (instrWord i d a) = a := by
  apply BitVec.eq_of_getLsbD_eq
  intro k hk
  simp only [addressField, instrWord, BitVec.getLsbD_extractLsb, BitVec.getLsbD_append]
  simp [hk]

/-- A word is its three fields. -/
theorem instrWord_fields (w : Word) : instrWord (indirectField w) (opcodeField w) (addressField w) = w := by
  apply BitVec.eq_of_getLsbD_eq
  intro k hk
  simp only [addressField, opcodeField, indirectField, instrWord, BitVec.getLsbD_extractLsb, BitVec.getLsbD_append]
  interval_cases k <;> simp

/-- Two words with the same three fields are the same word. -/
theorem word_eq_of_fields {w v : Word} (hi : indirectField w = indirectField v) (hd : opcodeField w = opcodeField v)
    (ha : addressField w = addressField v) : w = v := by
  rw [← instrWord_fields w, ← instrWord_fields v, hi, hd, ha]

/-- A row found by its selector is a row of the table. -/
theorem mem_of_selectorLookup {table : List (Addr × Instr)} {sel : Addr} {i : Instr}
    (h : selectorLookup table sel = some i) : (sel, i) ∈ table := by
  induction table with
  | nil => simp [selectorLookup] at h
  | cons row rest ih =>
    simp only [selectorLookup] at h
    split at h
    · next hs => cases h; subst hs; simp
    · exact List.mem_cons_of_mem _ (ih h)

/-- No row is found exactly when no row has the selector. -/
theorem selectorLookup_eq_none {table : List (Addr × Instr)} {sel : Addr} :
    selectorLookup table sel = none ↔ sel ∉ table.map Prod.fst := by
  induction table with
  | nil => simp [selectorLookup]
  | cons row rest ih =>
    by_cases h : row.1 = sel
    · simp [selectorLookup, h]
    · simp [selectorLookup, h, ih, Ne.symm h]

/-- The opcode of a memory-reference word, or 7. -/
theorem opcode_cases (d : BitVec 3) : d = 0 ∨ d = 1 ∨ d = 2 ∨ d = 3 ∨ d = 4 ∨ d = 5 ∨ d = 6 ∨ d = 7 := by
  revert d; decide

/-- Decoding by fields. -/
theorem decode_instrWord (c : Config) (i : Bool) (d : BitVec 3) (a : Addr) :
    decode c (instrWord i d a) =
      match memoryReferenceInstr d i a with
      | some instr => .ok instr
      | none => if i then decodeInputOutput c a else decodeRegisterReference a := by
  cases h : memoryReferenceInstr d i a <;> simp [decode, h]

end Sys2Proof
end

