-- ==== Sys2Proof/Laws/Memory.lean ====
section
/-! SUPPORT. What the memory operations do: a read after a write, the canonical form kept, and the used set. -/

namespace Sys2Proof.Machine

theorem Memory.lookup_filter_ne (m : Memory) (a b : Nat) :
    Memory.lookup (m.filter fun cell => cell.1 != a) b = if b = a then memFill else Memory.lookup m b := by
  induction m with
  | nil => simp [Memory.lookup]
  | cons cell rest ih =>
    by_cases h : cell.1 = a <;> by_cases hb : cell.1 = b
    · subst h; subst hb; simpa using ih
    · subst h; simp [ih, Memory.lookup, hb]
    · subst hb; simp [h, Memory.lookup]
    · simp [h, Memory.lookup, hb, ih]

theorem Memory.lookup_insert (m : Memory) (a b : Nat) (v : Word) (fresh : ∀ cell ∈ m, cell.1 ≠ a) :
    Memory.lookup (Memory.insert a v m) b = if b = a then v else Memory.lookup m b := by
  induction m with
  | nil => simp [Memory.insert, Memory.lookup, eq_comm]
  | cons cell rest ih =>
    have hc : cell.1 ≠ a := fresh cell (by simp)
    have ih := ih fun c hm => fresh c (by simp [hm])
    simp only [Memory.insert]
    split
    · simp [Memory.lookup, eq_comm]
    · by_cases hb : cell.1 = b
      · have : ¬ b = a := fun e => hc (hb.trans e)
        simp [Memory.lookup, hb, this]
      · simp [Memory.lookup, hb, ih]

theorem Memory.read_write (m : Memory) (a b : Addr) (v : Word) :
    (m.write a v).read b = if b = a then v else m.read b := by
  simp only [Memory.read, Memory.write, ← BitVec.toNat_inj (x := b) (y := a)]
  split
  · next h => simp [Memory.lookup_filter_ne, h]
  · rw [Memory.lookup_insert _ _ _ _ (by simp), Memory.lookup_filter_ne]
    split <;> rfl

@[simp] theorem Memory.read_write_same (m : Memory) (a : Addr) (v : Word) : (m.write a v).read a = v := by
  simp [Memory.read_write]

theorem Memory.read_write_other (m : Memory) {a b : Addr} (v : Word) (h : b ≠ a) :
    (m.write a v).read b = m.read b := by
  simp [Memory.read_write, h]

@[simp] theorem Memory.read_nil (a : Addr) : Memory.read [] a = memFill := rfl

theorem Memory.mem_insert {m : Memory} {a : Nat} {v : Word} {cell : Cell} :
    cell ∈ Memory.insert a v m ↔ cell = (a, v) ∨ cell ∈ m := by
  induction m with
  | nil => simp [Memory.insert]
  | cons c rest ih =>
    simp only [Memory.insert]
    split
    · simp
    · simp [ih]; tauto

theorem Memory.insert_rising {m : Memory} {a : Nat} {v : Word}
    (rising : (m.map Prod.fst).Pairwise (· < ·)) (fresh : ∀ cell ∈ m, cell.1 ≠ a) :
    ((Memory.insert a v m).map Prod.fst).Pairwise (· < ·) := by
  induction m with
  | nil => simp [Memory.insert]
  | cons c rest ih =>
    simp only [List.map_cons, List.pairwise_cons, List.mem_map] at rising
    obtain ⟨first, rest_rising⟩ := rising
    have hc : c.1 ≠ a := fresh c (by simp)
    simp only [Memory.insert]
    split
    · next h =>
      simp only [List.map_cons, List.pairwise_cons, List.mem_cons, List.mem_map]
      refine ⟨?_, first, rest_rising⟩
      rintro k (rfl | hk)
      · exact h
      · exact lt_trans h (first k hk)
    · next h =>
      simp only [List.map_cons, List.pairwise_cons, List.mem_map]
      refine ⟨?_, ih rest_rising fun d hd => fresh d (by simp [hd])⟩
      rintro k ⟨d, hd, rfl⟩
      rcases Memory.mem_insert.mp hd with rfl | hd
      · simp only; omega
      · exact first _ ⟨d, hd, rfl⟩

/-- Every write keeps the canonical form. -/
theorem Memory.write_wf {m : Memory} (h : m.wf) (a : Addr) (v : Word) : (m.write a v).wf := by
  obtain ⟨rising, cells⟩ := h
  have rising' : ((m.filter fun cell => cell.1 != a.toNat).map Prod.fst).Pairwise (· < ·) :=
    rising.sublist (List.Sublist.map _ List.filter_sublist)
  have cells' : ∀ cell ∈ m.filter (fun cell => cell.1 != a.toNat), cell.1 < memWords ∧ cell.2 ≠ memFill :=
    fun cell hm => cells cell (List.mem_of_mem_filter hm)
  simp only [Memory.write]
  split
  · exact ⟨rising', cells'⟩
  · next hv =>
    refine ⟨Memory.insert_rising rising' (by simp), fun cell hm => ?_⟩
    rcases Memory.mem_insert.mp hm with rfl | hm
    · exact ⟨a.isLt, hv⟩
    · exact cells' cell hm

/-- The empty memory, nothing listed, is in canonical form. -/
theorem Memory.nil_wf : Memory.wf [] := by simp [Memory.wf]

@[simp] theorem UsedSet.mem_mark {u : UsedSet} {a b : Nat} : b ∈ u.mark a ↔ b = a ∨ b ∈ u := by
  induction u with
  | nil => simp [UsedSet.mark]
  | cons c rest ih =>
    simp only [UsedSet.mark]
    split
    · simp
    · split
      · next h => subst h; simp
      · simp [ih]; tauto

/-- Every mark keeps the canonical form of the used set. -/
theorem UsedSet.mark_wf {u : UsedSet} (h : u.wf) (a : Addr) : (u.mark a.toNat).wf := by
  obtain ⟨rising, small⟩ := h
  refine ⟨?_, fun b hb => ?_⟩
  · clear small
    induction u with
    | nil => simp [UsedSet.mark]
    | cons c rest ih =>
      obtain ⟨first, rest_rising⟩ := List.pairwise_cons.mp rising
      simp only [UsedSet.mark]
      split
      · next hlt =>
        refine List.pairwise_cons.mpr ⟨fun k hk => ?_, rising⟩
        rcases List.mem_cons.mp hk with rfl | hk
        · exact hlt
        · exact lt_trans hlt (first k hk)
      · split
        · exact rising
        · refine List.pairwise_cons.mpr ⟨fun k hk => ?_, ih rest_rising⟩
          rcases UsedSet.mem_mark.mp hk with rfl | hk
          · omega
          · exact first k hk
  · rcases UsedSet.mem_mark.mp hb with rfl | hb
    · exact a.isLt
    · exact small b hb

/-- No used address is in canonical form. -/
theorem UsedSet.nil_wf : UsedSet.wf [] := by simp [UsedSet.wf]

end Sys2Proof.Machine
end

