-- ==== Sys2Proof/Laws/State.lean ====
section
/-! SUPPORT. One lemma for each field under each named update of the state, so that no later proof unfolds a record
update. -/

namespace Sys2Proof.Machine

@[simp] theorem State.readMem_eq (s : State) (a : Addr) : s.readMem a = s.mem.read a := rfl

/-! `tick` -/

@[simp] theorem State.tick_AC (n : Nat) (s : State) : (s.tick n).AC = s.AC := rfl
@[simp] theorem State.tick_AR (n : Nat) (s : State) : (s.tick n).AR = s.AR := rfl
@[simp] theorem State.tick_DR (n : Nat) (s : State) : (s.tick n).DR = s.DR := rfl
@[simp] theorem State.tick_IR (n : Nat) (s : State) : (s.tick n).IR = s.IR := rfl
@[simp] theorem State.tick_PC (n : Nat) (s : State) : (s.tick n).PC = s.PC := rfl
@[simp] theorem State.tick_TR (n : Nat) (s : State) : (s.tick n).TR = s.TR := rfl
@[simp] theorem State.tick_INPR (n : Nat) (s : State) : (s.tick n).INPR = s.INPR := rfl
@[simp] theorem State.tick_OUTR (n : Nat) (s : State) : (s.tick n).OUTR = s.OUTR := rfl
@[simp] theorem State.tick_S (n : Nat) (s : State) : (s.tick n).S = s.S := rfl
@[simp] theorem State.tick_I (n : Nat) (s : State) : (s.tick n).I = s.I := rfl
@[simp] theorem State.tick_E (n : Nat) (s : State) : (s.tick n).E = s.E := rfl
@[simp] theorem State.tick_R (n : Nat) (s : State) : (s.tick n).R = s.R := rfl
@[simp] theorem State.tick_IEN (n : Nat) (s : State) : (s.tick n).IEN = s.IEN := rfl
@[simp] theorem State.tick_FGI (n : Nat) (s : State) : (s.tick n).FGI = s.FGI := rfl
@[simp] theorem State.tick_FGO (n : Nat) (s : State) : (s.tick n).FGO = s.FGO := rfl
@[simp] theorem State.tick_D (n : Nat) (s : State) : (s.tick n).D = s.D := rfl
@[simp] theorem State.tick_CYC (n : Nat) (s : State) : (s.tick n).CYC = s.CYC + n := rfl
@[simp] theorem State.tick_EVQ (n : Nat) (s : State) : (s.tick n).EVQ = s.EVQ := rfl
@[simp] theorem State.tick_phase (n : Nat) (s : State) : (s.tick n).phase = s.phase := rfl
@[simp] theorem State.tick_haltReason (n : Nat) (s : State) : (s.tick n).haltReason = s.haltReason := rfl
@[simp] theorem State.tick_mem (n : Nat) (s : State) : (s.tick n).mem = s.mem := rfl
@[simp] theorem State.tick_used (n : Nat) (s : State) : (s.tick n).used = s.used := rfl
@[simp] theorem State.tick_config (n : Nat) (s : State) : (s.tick n).config = s.config := rfl

/-! `halt` -/

@[simp] theorem State.halt_AC (r : HaltReason) (s : State) : (s.halt r).AC = s.AC := rfl
@[simp] theorem State.halt_AR (r : HaltReason) (s : State) : (s.halt r).AR = s.AR := rfl
@[simp] theorem State.halt_DR (r : HaltReason) (s : State) : (s.halt r).DR = s.DR := rfl
@[simp] theorem State.halt_IR (r : HaltReason) (s : State) : (s.halt r).IR = s.IR := rfl
@[simp] theorem State.halt_PC (r : HaltReason) (s : State) : (s.halt r).PC = s.PC := rfl
@[simp] theorem State.halt_TR (r : HaltReason) (s : State) : (s.halt r).TR = s.TR := rfl
@[simp] theorem State.halt_INPR (r : HaltReason) (s : State) : (s.halt r).INPR = s.INPR := rfl
@[simp] theorem State.halt_OUTR (r : HaltReason) (s : State) : (s.halt r).OUTR = s.OUTR := rfl
@[simp] theorem State.halt_S (r : HaltReason) (s : State) : (s.halt r).S = false := rfl
@[simp] theorem State.halt_I (r : HaltReason) (s : State) : (s.halt r).I = s.I := rfl
@[simp] theorem State.halt_E (r : HaltReason) (s : State) : (s.halt r).E = s.E := rfl
@[simp] theorem State.halt_R (r : HaltReason) (s : State) : (s.halt r).R = s.R := rfl
@[simp] theorem State.halt_IEN (r : HaltReason) (s : State) : (s.halt r).IEN = s.IEN := rfl
@[simp] theorem State.halt_FGI (r : HaltReason) (s : State) : (s.halt r).FGI = s.FGI := rfl
@[simp] theorem State.halt_FGO (r : HaltReason) (s : State) : (s.halt r).FGO = s.FGO := rfl
@[simp] theorem State.halt_D (r : HaltReason) (s : State) : (s.halt r).D = s.D := rfl
@[simp] theorem State.halt_CYC (r : HaltReason) (s : State) : (s.halt r).CYC = s.CYC := rfl
@[simp] theorem State.halt_EVQ (r : HaltReason) (s : State) : (s.halt r).EVQ = s.EVQ := rfl
@[simp] theorem State.halt_phase (r : HaltReason) (s : State) : (s.halt r).phase = .halted := rfl
@[simp] theorem State.halt_haltReason (r : HaltReason) (s : State) : (s.halt r).haltReason = r := rfl
@[simp] theorem State.halt_mem (r : HaltReason) (s : State) : (s.halt r).mem = s.mem := rfl
@[simp] theorem State.halt_used (r : HaltReason) (s : State) : (s.halt r).used = s.used := rfl
@[simp] theorem State.halt_config (r : HaltReason) (s : State) : (s.halt r).config = s.config := rfl

/-! `skipIf` -/

@[simp] theorem State.skipIf_AC (b : Bool) (s : State) : (s.skipIf b).AC = s.AC := rfl
@[simp] theorem State.skipIf_AR (b : Bool) (s : State) : (s.skipIf b).AR = s.AR := rfl
@[simp] theorem State.skipIf_DR (b : Bool) (s : State) : (s.skipIf b).DR = s.DR := rfl
@[simp] theorem State.skipIf_IR (b : Bool) (s : State) : (s.skipIf b).IR = s.IR := rfl
@[simp] theorem State.skipIf_PC (b : Bool) (s : State) : (s.skipIf b).PC = if b then s.PC + 1 else s.PC := rfl
@[simp] theorem State.skipIf_TR (b : Bool) (s : State) : (s.skipIf b).TR = s.TR := rfl
@[simp] theorem State.skipIf_INPR (b : Bool) (s : State) : (s.skipIf b).INPR = s.INPR := rfl
@[simp] theorem State.skipIf_OUTR (b : Bool) (s : State) : (s.skipIf b).OUTR = s.OUTR := rfl
@[simp] theorem State.skipIf_S (b : Bool) (s : State) : (s.skipIf b).S = s.S := rfl
@[simp] theorem State.skipIf_I (b : Bool) (s : State) : (s.skipIf b).I = s.I := rfl
@[simp] theorem State.skipIf_E (b : Bool) (s : State) : (s.skipIf b).E = s.E := rfl
@[simp] theorem State.skipIf_R (b : Bool) (s : State) : (s.skipIf b).R = s.R := rfl
@[simp] theorem State.skipIf_IEN (b : Bool) (s : State) : (s.skipIf b).IEN = s.IEN := rfl
@[simp] theorem State.skipIf_FGI (b : Bool) (s : State) : (s.skipIf b).FGI = s.FGI := rfl
@[simp] theorem State.skipIf_FGO (b : Bool) (s : State) : (s.skipIf b).FGO = s.FGO := rfl
@[simp] theorem State.skipIf_D (b : Bool) (s : State) : (s.skipIf b).D = s.D := rfl
@[simp] theorem State.skipIf_CYC (b : Bool) (s : State) : (s.skipIf b).CYC = s.CYC := rfl
@[simp] theorem State.skipIf_EVQ (b : Bool) (s : State) : (s.skipIf b).EVQ = s.EVQ := rfl
@[simp] theorem State.skipIf_phase (b : Bool) (s : State) : (s.skipIf b).phase = s.phase := rfl
@[simp] theorem State.skipIf_haltReason (b : Bool) (s : State) : (s.skipIf b).haltReason = s.haltReason := rfl
@[simp] theorem State.skipIf_mem (b : Bool) (s : State) : (s.skipIf b).mem = s.mem := rfl
@[simp] theorem State.skipIf_used (b : Bool) (s : State) : (s.skipIf b).used = s.used := rfl
@[simp] theorem State.skipIf_config (b : Bool) (s : State) : (s.skipIf b).config = s.config := rfl

/-! `writeMem` -/

@[simp] theorem State.writeMem_AC (a : Addr) (v : Word) (s : State) : (s.writeMem a v).AC = s.AC := rfl
@[simp] theorem State.writeMem_AR (a : Addr) (v : Word) (s : State) : (s.writeMem a v).AR = s.AR := rfl
@[simp] theorem State.writeMem_DR (a : Addr) (v : Word) (s : State) : (s.writeMem a v).DR = s.DR := rfl
@[simp] theorem State.writeMem_IR (a : Addr) (v : Word) (s : State) : (s.writeMem a v).IR = s.IR := rfl
@[simp] theorem State.writeMem_PC (a : Addr) (v : Word) (s : State) : (s.writeMem a v).PC = s.PC := rfl
@[simp] theorem State.writeMem_TR (a : Addr) (v : Word) (s : State) : (s.writeMem a v).TR = s.TR := rfl
@[simp] theorem State.writeMem_INPR (a : Addr) (v : Word) (s : State) : (s.writeMem a v).INPR = s.INPR := rfl
@[simp] theorem State.writeMem_OUTR (a : Addr) (v : Word) (s : State) : (s.writeMem a v).OUTR = s.OUTR := rfl
@[simp] theorem State.writeMem_S (a : Addr) (v : Word) (s : State) : (s.writeMem a v).S = s.S := rfl
@[simp] theorem State.writeMem_I (a : Addr) (v : Word) (s : State) : (s.writeMem a v).I = s.I := rfl
@[simp] theorem State.writeMem_E (a : Addr) (v : Word) (s : State) : (s.writeMem a v).E = s.E := rfl
@[simp] theorem State.writeMem_R (a : Addr) (v : Word) (s : State) : (s.writeMem a v).R = s.R := rfl
@[simp] theorem State.writeMem_IEN (a : Addr) (v : Word) (s : State) : (s.writeMem a v).IEN = s.IEN := rfl
@[simp] theorem State.writeMem_FGI (a : Addr) (v : Word) (s : State) : (s.writeMem a v).FGI = s.FGI := rfl
@[simp] theorem State.writeMem_FGO (a : Addr) (v : Word) (s : State) : (s.writeMem a v).FGO = s.FGO := rfl
@[simp] theorem State.writeMem_D (a : Addr) (v : Word) (s : State) : (s.writeMem a v).D = s.D := rfl
@[simp] theorem State.writeMem_CYC (a : Addr) (v : Word) (s : State) : (s.writeMem a v).CYC = s.CYC := rfl
@[simp] theorem State.writeMem_EVQ (a : Addr) (v : Word) (s : State) : (s.writeMem a v).EVQ = s.EVQ := rfl
@[simp] theorem State.writeMem_phase (a : Addr) (v : Word) (s : State) : (s.writeMem a v).phase = s.phase := rfl
@[simp] theorem State.writeMem_haltReason (a : Addr) (v : Word) (s : State) : (s.writeMem a v).haltReason = s.haltReason := rfl
@[simp] theorem State.writeMem_mem (a : Addr) (v : Word) (s : State) : (s.writeMem a v).mem = s.mem.write a v := rfl
@[simp] theorem State.writeMem_used (a : Addr) (v : Word) (s : State) : (s.writeMem a v).used = s.used.mark a.toNat := rfl
@[simp] theorem State.writeMem_config (a : Addr) (v : Word) (s : State) : (s.writeMem a v).config = s.config := rfl

/-! `loadDR` -/

@[simp] theorem State.loadDR_AC (s : State) : s.loadDR.AC = s.AC := rfl
@[simp] theorem State.loadDR_AR (s : State) : s.loadDR.AR = s.AR := rfl
@[simp] theorem State.loadDR_DR (s : State) : s.loadDR.DR = s.mem.read s.AR := rfl
@[simp] theorem State.loadDR_IR (s : State) : s.loadDR.IR = s.IR := rfl
@[simp] theorem State.loadDR_PC (s : State) : s.loadDR.PC = s.PC := rfl
@[simp] theorem State.loadDR_TR (s : State) : s.loadDR.TR = s.TR := rfl
@[simp] theorem State.loadDR_INPR (s : State) : s.loadDR.INPR = s.INPR := rfl
@[simp] theorem State.loadDR_OUTR (s : State) : s.loadDR.OUTR = s.OUTR := rfl
@[simp] theorem State.loadDR_S (s : State) : s.loadDR.S = s.S := rfl
@[simp] theorem State.loadDR_I (s : State) : s.loadDR.I = s.I := rfl
@[simp] theorem State.loadDR_E (s : State) : s.loadDR.E = s.E := rfl
@[simp] theorem State.loadDR_R (s : State) : s.loadDR.R = s.R := rfl
@[simp] theorem State.loadDR_IEN (s : State) : s.loadDR.IEN = s.IEN := rfl
@[simp] theorem State.loadDR_FGI (s : State) : s.loadDR.FGI = s.FGI := rfl
@[simp] theorem State.loadDR_FGO (s : State) : s.loadDR.FGO = s.FGO := rfl
@[simp] theorem State.loadDR_D (s : State) : s.loadDR.D = s.D := rfl
@[simp] theorem State.loadDR_CYC (s : State) : s.loadDR.CYC = s.CYC := rfl
@[simp] theorem State.loadDR_EVQ (s : State) : s.loadDR.EVQ = s.EVQ := rfl
@[simp] theorem State.loadDR_phase (s : State) : s.loadDR.phase = s.phase := rfl
@[simp] theorem State.loadDR_haltReason (s : State) : s.loadDR.haltReason = s.haltReason := rfl
@[simp] theorem State.loadDR_mem (s : State) : s.loadDR.mem = s.mem := rfl
@[simp] theorem State.loadDR_used (s : State) : s.loadDR.used = s.used := rfl
@[simp] theorem State.loadDR_config (s : State) : s.loadDR.config = s.config := rfl

/-! `loadWord` -/

@[simp] theorem State.loadWord_AC (a : Addr) (v : Word) (s : State) : (s.loadWord a v).AC = s.AC := rfl
@[simp] theorem State.loadWord_AR (a : Addr) (v : Word) (s : State) : (s.loadWord a v).AR = s.AR := rfl
@[simp] theorem State.loadWord_DR (a : Addr) (v : Word) (s : State) : (s.loadWord a v).DR = s.DR := rfl
@[simp] theorem State.loadWord_IR (a : Addr) (v : Word) (s : State) : (s.loadWord a v).IR = s.IR := rfl
@[simp] theorem State.loadWord_PC (a : Addr) (v : Word) (s : State) : (s.loadWord a v).PC = s.PC := rfl
@[simp] theorem State.loadWord_TR (a : Addr) (v : Word) (s : State) : (s.loadWord a v).TR = s.TR := rfl
@[simp] theorem State.loadWord_INPR (a : Addr) (v : Word) (s : State) : (s.loadWord a v).INPR = s.INPR := rfl
@[simp] theorem State.loadWord_OUTR (a : Addr) (v : Word) (s : State) : (s.loadWord a v).OUTR = s.OUTR := rfl
@[simp] theorem State.loadWord_S (a : Addr) (v : Word) (s : State) : (s.loadWord a v).S = s.S := rfl
@[simp] theorem State.loadWord_I (a : Addr) (v : Word) (s : State) : (s.loadWord a v).I = s.I := rfl
@[simp] theorem State.loadWord_E (a : Addr) (v : Word) (s : State) : (s.loadWord a v).E = s.E := rfl
@[simp] theorem State.loadWord_R (a : Addr) (v : Word) (s : State) : (s.loadWord a v).R = s.R := rfl
@[simp] theorem State.loadWord_IEN (a : Addr) (v : Word) (s : State) : (s.loadWord a v).IEN = s.IEN := rfl
@[simp] theorem State.loadWord_FGI (a : Addr) (v : Word) (s : State) : (s.loadWord a v).FGI = s.FGI := rfl
@[simp] theorem State.loadWord_FGO (a : Addr) (v : Word) (s : State) : (s.loadWord a v).FGO = s.FGO := rfl
@[simp] theorem State.loadWord_D (a : Addr) (v : Word) (s : State) : (s.loadWord a v).D = s.D := rfl
@[simp] theorem State.loadWord_CYC (a : Addr) (v : Word) (s : State) : (s.loadWord a v).CYC = s.CYC := rfl
@[simp] theorem State.loadWord_EVQ (a : Addr) (v : Word) (s : State) : (s.loadWord a v).EVQ = s.EVQ := rfl
@[simp] theorem State.loadWord_phase (a : Addr) (v : Word) (s : State) : (s.loadWord a v).phase = s.phase := rfl
@[simp] theorem State.loadWord_haltReason (a : Addr) (v : Word) (s : State) : (s.loadWord a v).haltReason = s.haltReason := rfl
@[simp] theorem State.loadWord_mem (a : Addr) (v : Word) (s : State) : (s.loadWord a v).mem = s.mem.write a v := rfl
@[simp] theorem State.loadWord_used (a : Addr) (v : Word) (s : State) : (s.loadWord a v).used = if s.config.loadMarksUsed then s.used.mark a.toNat else s.used := rfl
@[simp] theorem State.loadWord_config (a : Addr) (v : Word) (s : State) : (s.loadWord a v).config = s.config := rfl

/-! `started` -/

@[simp] theorem State.started_AC (p : Addr) (s : State) : (s.started p).AC = s.AC := rfl
@[simp] theorem State.started_AR (p : Addr) (s : State) : (s.started p).AR = s.AR := rfl
@[simp] theorem State.started_DR (p : Addr) (s : State) : (s.started p).DR = s.DR := rfl
@[simp] theorem State.started_IR (p : Addr) (s : State) : (s.started p).IR = s.IR := rfl
@[simp] theorem State.started_PC (p : Addr) (s : State) : (s.started p).PC = p := rfl
@[simp] theorem State.started_TR (p : Addr) (s : State) : (s.started p).TR = s.TR := rfl
@[simp] theorem State.started_INPR (p : Addr) (s : State) : (s.started p).INPR = s.INPR := rfl
@[simp] theorem State.started_OUTR (p : Addr) (s : State) : (s.started p).OUTR = s.OUTR := rfl
@[simp] theorem State.started_S (p : Addr) (s : State) : (s.started p).S = true := rfl
@[simp] theorem State.started_I (p : Addr) (s : State) : (s.started p).I = s.I := rfl
@[simp] theorem State.started_E (p : Addr) (s : State) : (s.started p).E = s.E := rfl
@[simp] theorem State.started_R (p : Addr) (s : State) : (s.started p).R = s.R := rfl
@[simp] theorem State.started_IEN (p : Addr) (s : State) : (s.started p).IEN = s.IEN := rfl
@[simp] theorem State.started_FGI (p : Addr) (s : State) : (s.started p).FGI = s.FGI := rfl
@[simp] theorem State.started_FGO (p : Addr) (s : State) : (s.started p).FGO = s.FGO := rfl
@[simp] theorem State.started_D (p : Addr) (s : State) : (s.started p).D = s.D := rfl
@[simp] theorem State.started_CYC (p : Addr) (s : State) : (s.started p).CYC = s.CYC := rfl
@[simp] theorem State.started_EVQ (p : Addr) (s : State) : (s.started p).EVQ = s.EVQ := rfl
@[simp] theorem State.started_phase (p : Addr) (s : State) : (s.started p).phase = .fetch := rfl
@[simp] theorem State.started_haltReason (p : Addr) (s : State) : (s.started p).haltReason = .running := rfl
@[simp] theorem State.started_mem (p : Addr) (s : State) : (s.started p).mem = s.mem := rfl
@[simp] theorem State.started_used (p : Addr) (s : State) : (s.started p).used = s.used := rfl
@[simp] theorem State.started_config (p : Addr) (s : State) : (s.started p).config = s.config := rfl

end Sys2Proof.Machine
end

