-- ==== Sys2Proof/Laws/Ops.lean ====
section
/-! SUPPORT. For each shared operation, once, everything it can do; the proofs about instructions and steps cite these and
do not unfold the operations. -/

namespace Sys2Proof.Machine

/-- A write keeps the low w bits of any integer. -/
theorem Register.toNat_set (w : Nat) (v : Int) : ((Register.set w v).toNat : Int) = v % (2 ^ w : Nat) := by
  simp [Register.set, BitVec.toNat_ofInt, Int.toNat_of_nonneg (Int.emod_nonneg v (by positivity : ((2 : Int) ^ w) ≠ 0))]

/-- A register's own value written back leaves it. -/
@[simp] theorem Register.set_get {w : Nat} (v : BitVec w) : Register.set w (Register.get w v) = v := by
  simp [Register.set, Register.get]

/-- `increment()` is "set(get()+1)" (10_state.md R20). -/
theorem Register.set_get_add_one {w : Nat} (v : BitVec w) :
    Register.set w (Register.get w v + 1) = Register.increment v := by
  simp [Register.set, Register.get, Register.increment, BitVec.ofInt_add]

@[simp] theorem Register.increment_eq {w : Nat} (v : BitVec w) : Register.increment v = v + 1 := rfl

/-- The two settings of PC_WIDEN, as extensions of the bit pattern. -/
theorem widenPC_eq (c : Config) (p : Addr) :
    widenPC c p = if c.pcWiden = .sext then p.signExtend 16 else p.setWidth 16 := by
  unfold widenPC
  cases c.pcWiden <;> rfl

/-- The state in which EXECUTE begins, or in which a decode failure ends the run. -/
theorem State.fetch_decodePhase_eq (s : State) :
    s.fetch.decodePhase =
      { s with IR := s.mem.read s.PC, D := opcodeField (s.mem.read s.PC), I := indirectField (s.mem.read s.PC),
               AR := addressField (s.mem.read s.PC), PC := s.PC + 1, CYC := s.CYC + 3, phase := .execute } := rfl

theorem State.addressOperand_eq (indirect : Bool) (addr : Addr) (s : State) :
    s.addressOperand indirect addr =
      { s with AR := s.effectiveAddress indirect addr, CYC := s.CYC + if indirect then 1 else 0 } := by
  cases indirect <;> rfl

theorem State.interruptEntry_eq (s : State) :
    s.interruptEntry =
      { s with AR := 0, TR := widenPC s.config s.PC, mem := s.mem.write 0 (widenPC s.config s.PC),
               used := s.used.mark 0, PC := 1, IEN := false, R := false, CYC := s.CYC + 3 } := rfl

theorem State.interruptReturn_eq (s : State) :
    s.interruptReturn = { s with AR := 0, PC := addressField (s.mem.read 0), IEN := true } := rfl

/-- A delivery attempt either delivers the event at the cursor or leaves the state as it is. -/
theorem State.deliverInputEvent_cases (s : State) :
    (∃ event, s.config.inputEvents[s.EVQ]? = some event ∧ event.trigger ≤ s.CYC ∧ s.FGI = false ∧
      s.deliverInputEvent = { s with INPR := event.value, FGI := true, EVQ := s.EVQ + 1 }) ∨
    ((∀ event, s.config.inputEvents[s.EVQ]? = some event → ¬ (event.trigger ≤ s.CYC ∧ s.FGI = false)) ∧
      s.deliverInputEvent = s) := by
  unfold State.deliverInputEvent
  split
  · next event h =>
    split
    · next hd => exact .inl ⟨event, h, hd.1, hd.2, rfl⟩
    · next hd => exact .inr ⟨fun e he => by rw [h] at he; cases he; exact hd, rfl⟩
  · next h => exact .inr ⟨fun e he => by simp [h] at he, rfl⟩

/-- A delivery attempt writes INPR, FGI and EVQ only. -/
theorem State.deliverInputEvent_frame (s : State) :
    s.deliverInputEvent = { s with INPR := s.deliverInputEvent.INPR, FGI := s.deliverInputEvent.FGI,
                                   EVQ := s.deliverInputEvent.EVQ } := by
  rcases s.deliverInputEvent_cases with ⟨_, _, _, _, h⟩ | ⟨_, h⟩ <;> rw [h]

/-- INTERRUPT_CHECK with the interrupt pending: entry, then the delivery attempt. -/
theorem State.interruptCheck_pending (s : State) (h : s.IEN = true ∧ s.FGI = true) :
    s.interruptCheck = ({ s with phase := .interruptCheck }.interruptEntry).deliverInputEvent := by
  simp [State.interruptCheck, State.interruptPending, h]

/-- INTERRUPT_CHECK without it: the delivery attempt alone. -/
theorem State.interruptCheck_not_pending (s : State) (h : ¬ (s.IEN = true ∧ s.FGI = true)) :
    s.interruptCheck = { s with phase := .interruptCheck }.deliverInputEvent := by
  have : s.interruptPending = false := by simpa [State.interruptPending] using h
  have : ({ s with phase := Phase.interruptCheck } : State).interruptPending = false := this
  simp [State.interruptCheck, this]

/-- The runaway guard writes S, phase and HALT_REASON only. -/
theorem State.runawayCheck_cases (s : State) :
    (600 ≤ s.CYC ∧ s.runawayCheck = { s with S := false, phase := .halted, haltReason := .runaway }) ∨
    (s.CYC < 600 ∧ s.runawayCheck = { s with phase := .fetch }) := by
  by_cases h : cycleCeiling ≤ s.CYC
  · exact .inl ⟨h, by simp [State.runawayCheck, h, State.halt]⟩
  · exact .inr ⟨Nat.lt_of_not_le h, by simp [State.runawayCheck, h]⟩

/-- After HLT nothing follows; else INTERRUPT_CHECK and the guard. -/
theorem State.finishCycle_cases (s : State) :
    (s.S = false ∧ s.finishCycle = s) ∨ (s.S = true ∧ s.finishCycle = s.interruptCheck.runawayCheck) := by
  cases h : s.S <;> simp [State.finishCycle, h]

/-- The cycle boundary of R66, as its three conditions. -/
theorem State.atCycleBoundary_iff (s : State) :
    s.atCycleBoundary = true ↔ s.phase = .fetch ∧ s.S = true ∧ s.R = false := by
  simp [State.atCycleBoundary, and_assoc]

/-- Everything a step can do: it starts at a cycle boundary; the fetched word is no instruction and the run ends there, or
it is, and EXECUTE and what follows it give the next state. -/
theorem step_next_cases {s t : State} (h : step s = .next t) :
    (s.phase = .fetch ∧ s.S = true ∧ s.R = false) ∧
    ((∃ r, decode s.config (s.mem.read s.PC) = .error r ∧ t = s.fetch.decodePhase.halt .decodeFailure) ∨
     (∃ i u, decode s.config (s.mem.read s.PC) = .ok i ∧ exec i s.fetch.decodePhase = .next u ∧ t = u.finishCycle)) := by
  unfold step engineStep at h
  split at h
  · cases h
  split at h
  · next hb =>
    refine ⟨s.atCycleBoundary_iff.mp hb, ?_⟩
    unfold cycle at h
    dsimp only at h
    split at h
    · next r hd => cases h; exact .inl ⟨r, hd, rfl⟩
    · next i hd =>
      split at h
      · next u hu => cases h; exact .inr ⟨i, u, hd, hu, rfl⟩
      · cases h
      · cases h
  · cases h

/-- From a cycle boundary, a step is the cycle. -/
theorem step_eq_cycle {s : State} (h : s.phase = .fetch ∧ s.S = true ∧ s.R = false) : step s = cycle s := by
  simp [step, engineStep, State.isHalted, State.atCycleBoundary, h]

end Sys2Proof.Machine
end

