-- ==== Sys2Proof/Laws/PerInstr.lean ====
section
/-! SUPPORT. The family WordFields: the three fields of every instruction's word (30_encoding.md R54, R57, R59, R60), as
one lemma for each instruction; what the encoding statements are proved from. -/

namespace Sys2Proof.Laws.WordFields

/-- D of an instruction's word. -/
def opcode : Instr → BitVec 3
  | .and _ _ => 0
  | .add _ _ => 1
  | .lda _ _ => 2
  | .sta _ _ => 3
  | .bun _ _ => 4
  | .bsa _ _ => 5
  | .isz _ _ => 6
  | .cla | .cle | .cma | .cme | .cir | .cil | .inc | .spa | .sna | .sza | .sze | .hlt => 7
  | .inp | .out | .ski | .sko | .ion | .iof | .rti => 7

/-- I of an instruction's word. -/
def indirectBit : Instr → Bool
  | .and i _ | .add i _ | .lda i _ | .sta i _ | .bun i _ | .bsa i _ | .isz i _ => i
  | .cla | .cle | .cma | .cme | .cir | .cil | .inc | .spa | .sna | .sza | .sze | .hlt => false
  | .inp | .out | .ski | .sko | .ion | .iof | .rti => true

/-- Bits 11..0 of an instruction's word. -/
def address (c : Config) : Instr → Addr
  | .and _ a | .add _ a | .lda _ a | .sta _ a | .bun _ a | .bsa _ a | .isz _ a => a
  | .cla | .inp => 0x800
  | .cle | .out => 0x400
  | .cma | .ski => 0x200
  | .cme | .sko => 0x100
  | .cir | .ion => 0x080
  | .cil | .iof => 0x040
  | .inc => 0x020
  | .spa => 0x010
  | .sna => 0x008
  | .sza => 0x004
  | .sze => 0x002
  | .hlt => 0x001
  | .rti => c.rtiSelector

/-- The word of `i` has the fields the tables give it. -/
def Statement (i : Instr) : Prop :=
  ∀ c : Config, opcodeField (encode c i) = opcode i ∧ indirectField (encode c i) = indirectBit i ∧
    addressField (encode c i) = address c i

/-- The fields of a word put together by `instrWord`. -/
theorem of_instrWord (i : Bool) (d : BitVec 3) (a : Addr) :
    opcodeField (instrWord i d a) = d ∧ indirectField (instrWord i d a) = i ∧ addressField (instrWord i d a) = a := by
  simp

/-- A word of the tables of R59 and R60, as its three fields. -/
theorem of_word (w : Word) (i : Bool) (d : BitVec 3) (a : Addr) (h : w = instrWord i d a) :
    opcodeField w = d ∧ indirectField w = i ∧ addressField w = a := h ▸ of_instrWord i d a

theorem and (i : Bool) (a : Addr) : Statement (.and i a) := fun _ => of_instrWord i 0 a
theorem add (i : Bool) (a : Addr) : Statement (.add i a) := fun _ => of_instrWord i 1 a
theorem lda (i : Bool) (a : Addr) : Statement (.lda i a) := fun _ => of_instrWord i 2 a
theorem sta (i : Bool) (a : Addr) : Statement (.sta i a) := fun _ => of_instrWord i 3 a
theorem bun (i : Bool) (a : Addr) : Statement (.bun i a) := fun _ => of_instrWord i 4 a
theorem bsa (i : Bool) (a : Addr) : Statement (.bsa i a) := fun _ => of_instrWord i 5 a
theorem isz (i : Bool) (a : Addr) : Statement (.isz i a) := fun _ => of_instrWord i 6 a
theorem cla : Statement .cla := fun _ => of_word 0x7800 false 7 0x800 (by decide)
theorem cle : Statement .cle := fun _ => of_word 0x7400 false 7 0x400 (by decide)
theorem cma : Statement .cma := fun _ => of_word 0x7200 false 7 0x200 (by decide)
theorem cme : Statement .cme := fun _ => of_word 0x7100 false 7 0x100 (by decide)
theorem cir : Statement .cir := fun _ => of_word 0x7080 false 7 0x080 (by decide)
theorem cil : Statement .cil := fun _ => of_word 0x7040 false 7 0x040 (by decide)
theorem inc : Statement .inc := fun _ => of_word 0x7020 false 7 0x020 (by decide)
theorem spa : Statement .spa := fun _ => of_word 0x7010 false 7 0x010 (by decide)
theorem sna : Statement .sna := fun _ => of_word 0x7008 false 7 0x008 (by decide)
theorem sza : Statement .sza := fun _ => of_word 0x7004 false 7 0x004 (by decide)
theorem sze : Statement .sze := fun _ => of_word 0x7002 false 7 0x002 (by decide)
theorem hlt : Statement .hlt := fun _ => of_word 0x7001 false 7 0x001 (by decide)
theorem inp : Statement .inp := fun _ => of_word 0xF800 true 7 0x800 (by decide)
theorem out : Statement .out := fun _ => of_word 0xF400 true 7 0x400 (by decide)
theorem ski : Statement .ski := fun _ => of_word 0xF200 true 7 0x200 (by decide)
theorem sko : Statement .sko := fun _ => of_word 0xF100 true 7 0x100 (by decide)
theorem ion : Statement .ion := fun _ => of_word 0xF080 true 7 0x080 (by decide)
theorem iof : Statement .iof := fun _ => of_word 0xF040 true 7 0x040 (by decide)
theorem rti : Statement .rti := fun c => of_instrWord true 7 c.rtiSelector

end Sys2Proof.Laws.WordFields
end

