-- ==== Sys2Proof/Tests/Slice0.lean ====
section
/-! SUPPORT. The model's own tests, each one cycle or less on a small state: the checks of WellFormed.lean refusing what they
must, words written out bit by bit from the spec's tables, the vectors of 95_test_vectors.md (named in each comment; every
expected value is the spec's), and, for every statement with hypotheses, a state and operands that meet them. -/

namespace Sys2Proof.Tests

open Sys2Proof.Machine

/-- The next state of an outcome, if it has one. -/
def nextOf (o : Host.Outcome State Fault Refusal) : Option State :=
  match o with
  | .next t => some t
  | .fault _ => none
  | .refused _ => none

/-- The start state of the spec's vectors: the reset state with one word at PC. -/
def start (pc : Addr) (w : Word) : State := { State.reset with PC := pc, mem := Memory.write [] pc w }

/-- What `f` shows of the state after one cycle. -/
def after {α : Type} (s : State) (f : State → α) : Option α := (nextOf (step s)).map f

/-! WellFormed: each check refuses an ill-formed term -/

theorem test_wf_default : defaultConfig.wf = true := by decide
theorem test_illformed_rti_selector_two_bits : { defaultConfig with rtiSelector := 0x003 }.rtiSelectorWf = false := by decide
theorem test_illformed_rti_selector_taken : { defaultConfig with rtiSelector := 0x800 }.wf = false := by decide
theorem test_illformed_hlt_ticks : { defaultConfig with hltTicks := 2 }.hltTicksWf = false := by decide
theorem test_illformed_sza_ticks : { defaultConfig with szaTicks := 2 }.szaTicksWf = false := by decide
theorem test_illformed_rti : Instr.wf { defaultConfig with rtiSelector := 0x000 } .rti = false := by decide

/-! Decode: every instruction's word, written out from 30_encoding.md R57, R59, R60 -/

theorem test_decode_memory_reference :
    decode defaultConfig 0b0000000100000000 = .ok (.and false 0x100) ∧
    decode defaultConfig 0b1001000000100000 = .ok (.add true 0x020) ∧
    decode defaultConfig 0b0010000100000100 = .ok (.lda false 0x104) ∧
    decode defaultConfig 0b1011111111111111 = .ok (.sta true 0xFFF) ∧
    decode defaultConfig 0b0100101010111100 = .ok (.bun false 0xABC) ∧
    decode defaultConfig 0b0101000000100000 = .ok (.bsa false 0x020) ∧
    decode defaultConfig 0b1110000100000000 = .ok (.isz true 0x100) := by decide

theorem test_decode_register_reference :
    decode defaultConfig 0b0111100000000000 = .ok .cla ∧ decode defaultConfig 0b0111010000000000 = .ok .cle ∧
    decode defaultConfig 0b0111001000000000 = .ok .cma ∧ decode defaultConfig 0b0111000100000000 = .ok .cme ∧
    decode defaultConfig 0b0111000010000000 = .ok .cir ∧ decode defaultConfig 0b0111000001000000 = .ok .cil ∧
    decode defaultConfig 0b0111000000100000 = .ok .inc ∧ decode defaultConfig 0b0111000000010000 = .ok .spa ∧
    decode defaultConfig 0b0111000000001000 = .ok .sna ∧ decode defaultConfig 0b0111000000000100 = .ok .sza ∧
    decode defaultConfig 0b0111000000000010 = .ok .sze ∧ decode defaultConfig 0b0111000000000001 = .ok .hlt := by decide

theorem test_decode_input_output :
    decode defaultConfig 0b1111100000000000 = .ok .inp ∧ decode defaultConfig 0b1111010000000000 = .ok .out ∧
    decode defaultConfig 0b1111001000000000 = .ok .ski ∧ decode defaultConfig 0b1111000100000000 = .ok .sko ∧
    decode defaultConfig 0b1111000010000000 = .ok .ion ∧ decode defaultConfig 0b1111000001000000 = .ok .iof ∧
    decode defaultConfig 0b1111000000100000 = .ok .rti := by decide

/-- The illegal words of VT2. -/
theorem test_decode_illegal :
    decode defaultConfig 0x7000 = .error (.registerReferenceSelector 0x000) ∧
    decode defaultConfig 0x7003 = .error (.registerReferenceSelector 0x003) ∧
    decode defaultConfig 0x7FFF = .error (.registerReferenceSelector 0xFFF) ∧
    decode defaultConfig 0xF000 = .error (.inputOutputSelector 0x000) ∧
    decode defaultConfig 0xF001 = .error (.inputOutputSelector 0x001) ∧
    decode defaultConfig 0xF801 = .error (.inputOutputSelector 0x801) ∧
    decode defaultConfig 0xFFFF = .error (.inputOutputSelector 0xFFF) := by decide

/-- RTI's selector is a parameter (R60): with 0x010 its word is 0xF010, and 0xF020 is illegal. -/
theorem test_decode_rti_selector :
    decode { defaultConfig with rtiSelector := 0x010 } 0xF010 = .ok .rti ∧
    decode { defaultConfig with rtiSelector := 0x010 } 0xF020 = .error (.inputOutputSelector 0x020) := by decide

theorem test_decode_table_word :
    decodeTableWord 16 0x9020 = some (.add true 0x020) ∧ decodeTableWord 16 0xF020 = some .rti ∧
    decodeTableWord 16 0x7003 = none := by decide

theorem test_encode :
    encode defaultConfig (.add true 0x020) = 0x9020 ∧ encode defaultConfig (.isz false 0x100) = 0x6100 ∧
    encode defaultConfig .rti = 0xF020 := by decide

/-! Memory-reference instructions -/

/-- VM1. -/
theorem test_and :
    after { start 0x010 0x0100 with AC := 0xF0F0, mem := (start 0x010 0x0100).mem.write 0x100 0x0FF0 }
      (fun t => (t.AC, t.DR, t.E, t.PC, t.CYC)) = some (0x00F0, 0x0FF0, false, 0x011, 5) := by decide
/-- VM3. -/
theorem test_and_indirect :
    after { start 0x010 0x8100 with AC := 0x1234, mem := ((start 0x010 0x8100).mem.write 0x100 0x200).write 0x200 0x00FF }
      (fun t => (t.AC, t.AR, t.DR, t.CYC)) = some (0x0034, 0x200, 0x00FF, 6) := by decide
/-- VM4, W2. -/
theorem test_add_carry :
    after { start 0x010 0x1100 with AC := 0xFFFF, mem := (start 0x010 0x1100).mem.write 0x100 0x0001 }
      (fun t => (t.AC, t.E, t.DR, t.CYC)) = some (0x0000, true, 0x0001, 5) := by decide
/-- VM5 with VM8's old E: a signed overflow sets no carry, and E is overwritten. -/
theorem test_add_signed_overflow :
    after { start 0x010 0x1100 with AC := 0x7FFF, E := true, mem := (start 0x010 0x1100).mem.write 0x100 0x0001 }
      (fun t => (t.AC, t.E)) = some (0x8000, false) := by decide
/-- VM11. -/
theorem test_lda :
    after { start 0x010 0x2100 with AC := 0x1111, mem := (start 0x010 0x2100).mem.write 0x100 0x8001 }
      (fun t => (t.AC, t.DR, t.CYC)) = some (0x8001, 0x8001, 5) := by decide
/-- VM12: bit 15 of the pointer starts no second level. -/
theorem test_lda_pointer_bit15 :
    after { start 0x010 0xA100 with mem := ((start 0x010 0xA100).mem.write 0x100 0x8200).write 0x200 0x0042 }
      (fun t => (t.AC, t.AR, t.CYC)) = some (0x0042, 0x200, 6) := by decide
/-- VM13. -/
theorem test_sta :
    after { start 0x010 0x3100 with AC := 0xBEEF, mem := (start 0x010 0x3100).mem.write 0x100 0x0000 }
      (fun t => (t.mem.read 0x100, t.DR, t.CYC)) = some (0xBEEF, 0x0000, 4) := by decide
/-- Storing 0x7001, what an unlisted word reads as, leaves memory canonical (log 1). -/
theorem test_sta_fill_unlists :
    after { start 0x010 0x3100 with AC := 0x7001, mem := (start 0x010 0x3100).mem.write 0x100 0x0000 }
      (fun t => (t.mem, t.mem.read 0x100)) = some ([(0x010, 0x3100)], 0x7001) := by decide
/-- VM15. -/
theorem test_bun : after (start 0x010 0x4ABC) (fun t => (t.PC, t.AR, t.CYC)) = some (0xABC, 0xABC, 4) := by decide
/-- VM16. -/
theorem test_bun_indirect :
    after { start 0x010 0xC100 with mem := (start 0x010 0xC100).mem.write 0x100 0xF123 }
      (fun t => (t.PC, t.AR, t.CYC)) = some (0x123, 0x123, 5) := by decide
/-- VM17 (W5) and VM18. -/
theorem test_bsa :
    after (start 0x010 0x5020) (fun t => (t.PC, t.AR, t.CYC, t.mem.read 0x020)) = some (0x021, 0x021, 5, 0x0011) ∧
    after (start 0x010 0x5FFF) (fun t => (t.PC, t.AR, t.mem.read 0xFFF)) = some (0x000, 0x000, 0x0011) := by decide
/-- VM19 and VM20. -/
theorem test_bsa_pc_widen :
    after (start 0x8FF 0x5100) (fun t => (t.PC, t.mem.read 0x100)) = some (0x101, 0xF900) ∧
    after { start 0x8FF 0x5100 with config := { defaultConfig with pcWiden := .zext } }
      (fun t => (t.PC, t.mem.read 0x100)) = some (0x101, 0x0900) := by decide
/-- VM22 and VM23. -/
theorem test_isz :
    after { start 0x010 0x6100 with mem := (start 0x010 0x6100).mem.write 0x100 0xFFFF }
      (fun t => (t.DR, t.PC, t.CYC, t.mem.read 0x100)) = some (0x0000, 0x012, 6, 0x0000) ∧
    after { start 0x010 0x6100 with mem := (start 0x010 0x6100).mem.write 0x100 0x7FFF }
      (fun t => (t.DR, t.PC, t.mem.read 0x100)) = some (0x8000, 0x011, 0x8000) := by decide
/-- VM24 and VM25. -/
theorem test_isz_wrap_and_indirect :
    after { start 0xFFE 0x6100 with mem := (start 0xFFE 0x6100).mem.write 0x100 0xFFFF }
      (fun t => (t.PC, t.mem.read 0x100)) = some (0x000, 0x0000) ∧
    after { start 0x010 0xE100 with mem := ((start 0x010 0xE100).mem.write 0x100 0x200).write 0x200 0xFFFF }
      (fun t => (t.PC, t.AR, t.CYC, t.mem.read 0x200)) = some (0x012, 0x200, 7, 0x0000) := by decide

/-! Register-reference instructions -/

/-- VR1. -/
theorem test_cla :
    after { start 0x010 0x7800 with AC := 0x1234, E := true } (fun t => (t.AC, t.E, t.AR, t.CYC)) =
      some (0x0000, true, 0x800, 4) := by decide
/-- VR2. -/
theorem test_cle : after { start 0x010 0x7400 with E := true } (fun t => (t.E, t.CYC)) = some (false, 4) := by decide
/-- VR3, VR4. -/
theorem test_cma :
    after { start 0x010 0x7200 with AC := 0x00FF } (·.AC) = some 0xFF00 ∧
    after { start 0x010 0x7200 with AC := 0x8000 } (·.AC) = some 0x7FFF := by decide
/-- VR5, VR6. -/
theorem test_cme :
    after { start 0x010 0x7100 with E := false } (·.E) = some true ∧
    after { start 0x010 0x7100 with E := true } (·.E) = some false := by decide
/-- VR7 (W3), VR8, VR9. -/
theorem test_cir :
    after { start 0x010 0x7080 with AC := 0x0001, E := false } (fun t => (t.AC, t.E, t.CYC)) = some (0x0000, true, 4) ∧
    after { start 0x010 0x7080 with AC := 0x8000, E := false } (fun t => (t.AC, t.E)) = some (0x4000, false) ∧
    after { start 0x010 0x7080 with AC := 0x0000, E := true } (fun t => (t.AC, t.E)) = some (0x8000, false) := by decide
/-- VR10 (W3), VR11, VR12. -/
theorem test_cil :
    after { start 0x010 0x7040 with AC := 0x0000, E := true } (fun t => (t.AC, t.E)) = some (0x0001, false) ∧
    after { start 0x010 0x7040 with AC := 0x8000, E := false } (fun t => (t.AC, t.E)) = some (0x0000, true) ∧
    after { start 0x010 0x7040 with AC := 0x5555, E := true } (fun t => (t.AC, t.E)) = some (0xAAAB, false) := by decide
/-- VR13, VR14. -/
theorem test_inc :
    after { start 0x010 0x7020 with AC := 0xFFFF, E := false } (fun t => (t.AC, t.E)) = some (0x0000, false) ∧
    after { start 0x010 0x7020 with AC := 0x7FFF, E := true } (fun t => (t.AC, t.E)) = some (0x8000, true) := by decide
/-- VR15, VR17. -/
theorem test_spa :
    after { start 0x010 0x7010 with AC := 0x0000 } (·.PC) = some 0x012 ∧
    after { start 0x010 0x7010 with AC := 0x8000 } (·.PC) = some 0x011 := by decide
/-- VR27. -/
theorem test_spa_wrap : after { start 0xFFF 0x7010 with AC := 0x0000 } (·.PC) = some 0x001 := by decide
/-- VR18, VR20. -/
theorem test_sna :
    after { start 0x010 0x7008 with AC := 0x0000 } (·.PC) = some 0x011 ∧
    after { start 0x010 0x7008 with AC := 0x8000 } (·.PC) = some 0x012 := by decide
/-- VR22, VR23. -/
theorem test_sza :
    after { start 0x010 0x7004 with AC := 0x0000 } (fun t => (t.PC, t.CYC)) = some (0x012, 3) ∧
    after { start 0x010 0x7004 with AC := 0x8000 } (fun t => (t.PC, t.CYC)) = some (0x011, 3) := by decide
/-- VR24. -/
theorem test_sza_ticks :
    after { start 0x010 0x7004 with AC := 0x0000, config := { defaultConfig with szaTicks := 1 } }
      (fun t => (t.PC, t.CYC)) = some (0x012, 4) := by decide
/-- VR25, VR26. -/
theorem test_sze :
    after { start 0x010 0x7002 with E := false } (·.PC) = some 0x012 ∧
    after { start 0x010 0x7002 with E := true } (·.PC) = some 0x011 := by decide
/-- VR28 and VX8: no interrupt entry after HLT. -/
theorem test_hlt :
    after { start 0x050 0x7001 with FGI := true, IEN := true }
      (fun t => (t.S, t.PC, t.IEN, t.CYC, t.haltReason, t.mem.read 0x000)) =
      some (false, 0x051, true, 3, .hltExecuted, 0x7001) := by decide
/-- VR29. -/
theorem test_hlt_ticks :
    after { start 0x010 0x7001 with config := { defaultConfig with hltTicks := 1 } }
      (fun t => (t.S, t.CYC, t.haltReason)) = some (false, 4, .hltExecuted) := by decide
/-- VR30 (W4) and VX9: a decode failure, with an interrupt pending. -/
theorem test_decode_failure :
    after { start 0x050 0x7003 with FGI := true, IEN := true }
      (fun t => (t.S, t.AR, t.D, t.haltReason)) = some (false, 0x003, 7, .decodeFailure) ∧
    after { start 0x050 0x7003 with FGI := true, IEN := true }
      (fun t => (t.PC, t.IEN, t.CYC, t.mem.read 0x000)) = some (0x051, true, 3, 0x7001) := by decide

/-! Input/output instructions -/

/-- VI1. -/
theorem test_inp :
    after { start 0x010 0xF800 with AC := 0x1234, INPR := 0xAB, FGI := true }
      (fun t => (t.AC, t.FGI, t.INPR, t.CYC)) = some (0x12AB, false, 0xAB, 4) := by decide
/-- VD4: INP frees the device in the same cycle. -/
theorem test_inp_frees_device :
    after { start 0x010 0xF800 with FGI := true, INPR := 0x41, config := { defaultConfig with inputEvents := [⟨0, 66⟩] } }
      (fun t => (t.AC, t.INPR, t.FGI, t.EVQ)) = some (0x0041, 0x42, true, 1) := by decide
/-- VI3. -/
theorem test_out :
    after { start 0x010 0xF400 with AC := 0x12CD, FGO := true }
      (fun t => (t.OUTR, t.FGO, t.AC, t.CYC)) = some (0xCD, false, 0x12CD, 4) := by decide
/-- VI4, VI5. -/
theorem test_ski :
    after { start 0x010 0xF200 with FGI := false } (·.PC) = some 0x011 ∧
    after { start 0x010 0xF200 with FGI := true } (·.PC) = some 0x012 := by decide
/-- VI6, VI7. -/
theorem test_sko :
    after { start 0x010 0xF100 with FGO := false } (·.PC) = some 0x011 ∧
    after { start 0x010 0xF100 with FGO := true } (·.PC) = some 0x012 := by decide
/-- VI8. -/
theorem test_ion : after { start 0x010 0xF080 with IEN := false } (·.IEN) = some true := by decide
/-- VX1. -/
theorem test_ion_interrupt_at_once :
    after { start 0x050 0xF080 with FGI := true }
      (fun t => (t.PC, t.IEN, t.TR, t.FGI, t.CYC, t.mem.read 0x000)) =
      some (0x001, false, 0x0051, true, 7, 0x0051) := by decide
/-- VX2. -/
theorem test_iof :
    after { start 0x050 0xF040 with FGI := true, IEN := true } (fun t => (t.PC, t.IEN, t.CYC)) =
      some (0x051, false, 4) := by decide
/-- VI10, VI11. -/
theorem test_rti :
    after { start 0x010 0xF020 with mem := (start 0x010 0xF020).mem.write 0x000 0x0050 }
      (fun t => (t.PC, t.AR, t.IEN, t.CYC)) = some (0x050, 0x000, true, 4) ∧
    after { start 0x010 0xF020 with mem := (start 0x010 0xF020).mem.write 0x000 0xF123 } (·.PC) = some 0x123 := by decide
/-- VX7. -/
theorem test_rti_reenters :
    after { start 0x003 0xF020 with FGI := true, mem := (start 0x003 0xF020).mem.write 0x000 0x0104 }
      (fun t => (t.PC, t.IEN, t.CYC, t.mem.read 0x000)) = some (0x001, false, 7, 0x0104) := by decide

/-! Interrupt entry, the input device, the guard -/

/-- VX3. -/
theorem test_skip_then_interrupt :
    after { start 0x050 0x7004 with FGI := true, IEN := true } (fun t => (t.PC, t.CYC, t.mem.read 0x000)) =
      some (0x001, 6, 0x0052) := by decide
/-- VX5, VX6. -/
theorem test_entry_pc_widen :
    after { start 0x8FF 0x7800 with FGI := true, IEN := true } (fun t => (t.TR, t.PC, t.mem.read 0x000)) =
      some (0xF900, 0x001, 0xF900) ∧
    after { start 0x8FF 0x7800 with FGI := true, IEN := true, config := { defaultConfig with pcWiden := .zext } }
      (fun t => (t.TR, t.PC, t.mem.read 0x000)) = some (0x0900, 0x001, 0x0900) := by decide
/-- VD1, VD2. -/
theorem test_event_trigger :
    after { start 0x010 0x7800 with config := { defaultConfig with inputEvents := [⟨3, 65⟩] } }
      (fun t => (t.INPR, t.FGI, t.EVQ, t.CYC)) = some (0x41, true, 1, 4) ∧
    after { start 0x010 0x7800 with config := { defaultConfig with inputEvents := [⟨5, 65⟩] } }
      (fun t => (t.INPR, t.FGI, t.EVQ, t.CYC)) = some (0x00, false, 0, 4) := by decide
/-- VD3, VD5. -/
theorem test_event_blocked :
    after { start 0x010 0x7800 with FGI := true, INPR := 0x11, config := { defaultConfig with inputEvents := [⟨0, 65⟩] } }
      (fun t => (t.INPR, t.FGI, t.EVQ)) = some (0x11, true, 0) ∧
    after { start 0x050 0x7800 with FGI := true, IEN := true, config := { defaultConfig with inputEvents := [⟨7, 85⟩] } }
      (fun t => (t.CYC, t.PC, t.INPR, t.FGI, t.EVQ)) = some (7, 0x001, 0x00, true, 0) := by decide
/-- VT5, VT6. -/
theorem test_ceiling_order :
    after { start 0x010 0x7001 with CYC := 598 } (fun t => (t.CYC, t.haltReason)) = some (601, .hltExecuted) ∧
    after { start 0x010 0x7800 with CYC := 594, FGI := true, IEN := true }
      (fun t => (t.CYC, t.mem.read 0x000, t.PC, t.haltReason, t.S)) = some (601, 0x0011, 0x001, .runaway, false) := by decide
/-- The last cycle of P6: CYC reaches 600. -/
theorem test_runaway_reaches :
    after { start 0x200 0x4200 with CYC := 596 } (fun t => (t.CYC, t.PC, t.haltReason)) = some (600, 0x200, .runaway) ∧
    after { start 0x200 0x4200 with CYC := 595 } (fun t => (t.CYC, t.S, t.haltReason)) = some (599, true, .running) := by decide

/-! Reset, load and host -/

/-- W7: HLT first, here on the unlisted memory of reset. -/
theorem test_reset_runs_hlt :
    after State.reset (fun t => (t.S, t.haltReason, t.IR, t.AR)) = some (false, .hltExecuted, 0x7001, 0x001) ∧
    after State.reset (fun t => (t.D, t.PC, t.CYC)) = some (7, 0x001, 3) := by decide
/-- R52: a word loaded twice holds the last value; R127: the start value. -/
theorem test_construct :
    (State.construct defaultConfig [(0x300, 0x2304), (0x300, 0x7020)] (some 0x300)).mem.read 0x300 = 0x7020 ∧
    (State.construct defaultConfig [(0x300, 0x7020)] (some 0x300)).PC = 0x300 := by decide
/-- VT7. -/
theorem test_invalid_image :
    (State.construct defaultConfig [] none).S = false ∧ (State.construct defaultConfig [] none).CYC = 0 ∧
    nextOf (step (State.construct defaultConfig [] none)) = none := by decide
/-- An instruction placed at PC is what the next step runs: INC after reset (R86). -/
theorem test_with_fetch_word : after (State.reset.withFetchWord 16 0x7020) (·.AC) = some 0x0001 := by decide
/-- Level 5 lists a stored word's address as used (R124, R44). -/
theorem test_snapshot_used :
    after { start 0x010 0x3100 with AC := 0x8000 } (fun t => (t.snapshot .level5).usedCells) =
      some (some [(0x100, 0x8000)]) := by decide

/-- R34: the snapshot shows D, 7 after a register-reference word (R29), from level 3 on. -/
theorem test_snapshot_opcode :
    after (start 0x010 0x7800) (fun t => (t.snapshot .level3).opcode) = some (some 7) ∧
    after (start 0x010 0x7800) (fun t => (t.snapshot .level2).opcode) = some none := by decide

/-! Witnesses: for each statement with hypotheses, a state and operands that meet all of them -/

/-- CLA at 0x010, nothing pending. -/
def claState : State := start 0x010 0x7800
/-- CLA at 0x010 with the interrupt pending. -/
def pendingState : State := { start 0x010 0x7800 with IEN := true, FGI := true }
/-- An illegal word at 0x010. -/
def illegalState : State := start 0x010 0x7003
/-- CLA at 0x010 with an event whose trigger the cycle just reaches. -/
def eventState : State := { start 0x010 0x7800 with config := { defaultConfig with inputEvents := [⟨4, 65⟩] } }
/-- CLA at 0x010 with an event whose trigger the cycle just misses. -/
def earlyState : State := { start 0x010 0x7800 with config := { defaultConfig with inputEvents := [⟨5, 65⟩] } }

theorem witness_DecodeOfEncodeIsTheInstruction :
    Instr.wf defaultConfig .rti = true ∧ Instr.wf defaultConfig (.isz true 0xFFF) = true := by decide
theorem witness_EncodeOfDecodeIsTheWord : decode defaultConfig 0xEFFF = .ok (.isz true 0xFFF) := by decide
theorem witness_UnloadedMemoryHoldsTheHltEncoding :
    (∀ entry ∈ [((0x100 : Addr), (0x7020 : Word))], entry.1 ≠ 0x101) ∧
    State.reset.AtBoundary ∧ State.reset.mem.read State.reset.PC = 0x7001 :=
  ⟨by simp, ⟨rfl, rfl, rfl⟩, rfl⟩
theorem witness_FetchReadsTheWordAtPcAndAdvances : (start 0xFFF 0x7010).PC = 0xFFF := rfl
theorem witness_StepRunsTheDecodedInstruction :
    claState.AtBoundary ∧ decode claState.config (claState.mem.read claState.PC) = .ok .cla :=
  ⟨⟨rfl, rfl, rfl⟩, by decide⟩
theorem witness_CilAndCirUndoEachOther : ∃ t u, exec .cir claState = .next t ∧ exec .cil claState = .next u :=
  ⟨_, _, rfl, rfl⟩
theorem witness_IonAndIofSetAndClearInterruptEnable :
    pendingState.FGI = true ∧ ∃ t u, exec .ion pendingState = .next t ∧ exec .iof pendingState = .next u :=
  ⟨rfl, _, _, rfl, rfl⟩
theorem witness_RtiReturnsThroughAddressZero : State.reset.config.wf = true := by decide
theorem witness_WidenedPcKeepsItsLowTwelveBits :
    defaultConfig.pcWiden = .sext ∧ { defaultConfig with pcWiden := .zext }.pcWiden = .zext := ⟨rfl, rfl⟩
/-- Pending, not pending, HLT, and a decode failure. -/
theorem witness_InterruptTakenExactlyWhenEnabledAndReady :
    (pendingState.AtBoundary ∧ pendingState.fetched = .ok .cla ∧ ∃ u t, exec .cla pendingState.fetch.decodePhase = .next u ∧
      step pendingState = .next t ∧ u.S = true ∧ u.IEN = true ∧ u.FGI = true) ∧
    (claState.AtBoundary ∧ claState.fetched = .ok .cla ∧ ∃ u t, exec .cla claState.fetch.decodePhase = .next u ∧
      step claState = .next t ∧ u.S = true ∧ ¬ (u.IEN = true ∧ u.FGI = true)) ∧
    (State.reset.AtBoundary ∧ State.reset.fetched = .ok .hlt ∧ ∃ u t, exec .hlt State.reset.fetch.decodePhase = .next u ∧
      step State.reset = .next t ∧ u.S = false) ∧
    (illegalState.AtBoundary ∧ illegalState.fetched = .error (.registerReferenceSelector 0x003) ∧
      ∃ t, step illegalState = .next t) :=
  ⟨⟨⟨rfl, rfl, rfl⟩, rfl, _, _, rfl, rfl, rfl, rfl, rfl⟩, ⟨⟨rfl, rfl, rfl⟩, rfl, _, _, rfl, rfl, rfl, nofun⟩,
   ⟨⟨rfl, rfl, rfl⟩, rfl, _, _, rfl, rfl, rfl⟩, ⟨rfl, rfl, rfl⟩, rfl, _, rfl⟩
/-- Each of the four changes of FGI and IEN happens: INP, a delivery, ION, IOF and an interrupt entry. -/
theorem witness_InterruptFlagsHaveOnlyTheirWriters :
    (∃ t, step { start 0x010 0xF800 with FGI := true } = .next t ∧ t.FGI = false) ∧
    (∃ t, step eventState = .next t ∧ eventState.FGI = false ∧ t.FGI = true) ∧
    (∃ t, step (start 0x010 0xF080) = .next t ∧ (start 0x010 0xF080).IEN = false ∧ t.IEN = true) ∧
    (∃ t, step { start 0x010 0xF040 with IEN := true } = .next t ∧ t.IEN = false) ∧
    (∃ t, step pendingState = .next t ∧ pendingState.IEN = true ∧ t.IEN = false) :=
  ⟨⟨_, rfl, rfl⟩, ⟨_, rfl, rfl, rfl⟩, ⟨_, rfl, rfl, rfl⟩, ⟨_, rfl, rfl⟩, _, rfl, rfl, rfl⟩
theorem witness_InputEventsAreConsumedOnceInOrder :
    (∃ t, step eventState = .next t ∧ t.EVQ = 1) ∧ (∃ t, step earlyState = .next t ∧ t.EVQ = 0) :=
  ⟨⟨_, rfl, rfl⟩, _, rfl, rfl⟩
/-- At the trigger exactly, and one tick short of it. -/
theorem witness_InputEventDeliveredWhenReachedAndFree :
    (eventState.AtBoundary ∧ eventState.fetched = .ok .cla ∧ ∃ u t, exec .cla eventState.fetch.decodePhase = .next u ∧
      u.S = true ∧ step eventState = .next t ∧ eventState.config.inputEvents[eventState.EVQ]? = some ⟨4, 65⟩ ∧
      4 ≤ t.CYC ∧ u.FGI = false) ∧
    (earlyState.AtBoundary ∧ earlyState.fetched = .ok .cla ∧ ∃ u t, exec .cla earlyState.fetch.decodePhase = .next u ∧
      u.S = true ∧ step earlyState = .next t ∧ earlyState.config.inputEvents[earlyState.EVQ]? = some ⟨5, 65⟩ ∧
      t.CYC < 5) :=
  ⟨⟨⟨rfl, rfl, rfl⟩, rfl, _, _, rfl, rfl, rfl, rfl, by decide, rfl⟩,
   ⟨rfl, rfl, rfl⟩, rfl, _, _, rfl, rfl, rfl, rfl, by decide⟩
/-- One cycle that ends at exactly 600 ticks and one that ends at 599. -/
theorem witness_RunawayGuardStopsAtTheCeiling :
    (∃ t, State.Running { claState with CYC := 596 } ∧ step { claState with CYC := 596 } = .next t ∧ t.CYC = 600) ∧
    (∃ t, State.Running { claState with CYC := 595 } ∧ step { claState with CYC := 595 } = .next t ∧ t.CYC = 599) ∧
    claState.R = false ∧ claState.AtBoundary ∧ claState.fetched = .ok .cla ∧ Instr.cla ≠ .hlt :=
  ⟨⟨_, ⟨rfl, rfl, rfl, (by decide : 596 < cycleCeiling)⟩, rfl, rfl⟩,
   ⟨_, ⟨rfl, rfl, rfl, (by decide : 595 < cycleCeiling)⟩, rfl, rfl⟩, rfl, ⟨rfl, rfl, rfl⟩, rfl, nofun⟩
theorem witness_HltCycleEndsTheRunAtOnce :
    State.reset.AtBoundary ∧ State.reset.mem.read State.reset.PC = 0x7001 := ⟨⟨rfl, rfl, rfl⟩, rfl⟩
theorem witness_IllegalWordEndsTheRun :
    illegalState.AtBoundary ∧ illegalState.fetched = .error (.registerReferenceSelector 0x003) := ⟨⟨rfl, rfl, rfl⟩, rfl⟩
theorem witness_HaltedEngineTakesNoStep :
    ((claState.halt .runaway).phase = .halted ∨ (claState.halt .runaway).S = false) ∧ ∃ t, step claState = .next t :=
  ⟨.inl rfl, _, rfl⟩
theorem witness_RegistersChangeOnlyByTheirWriters :
    (claState.fetched = .ok .cla ∧ ∃ t, step claState = .next t) ∧
    ((start 0x010 0xF800).fetched = .ok .inp ∧ ∃ t, step (start 0x010 0xF800) = .next t) := ⟨⟨rfl, _, rfl⟩, rfl, _, rfl⟩
theorem witness_CarryChangesOnlyByItsFiveWriters : ∃ t, step (start 0x010 0x7100) = .next t ∧ t.E = true := ⟨_, rfl, rfl⟩
/-- A store by an instruction and a store by interrupt entry. -/
theorem witness_StepStoresOnlyAtItsTargets :
    (∃ t, step (start 0x010 0x3100) = .next t ∧ t.mem.read 0x100 ≠ (start 0x010 0x3100).mem.read 0x100) ∧
    (∃ t, step pendingState = .next t ∧ t.mem.read 0x000 ≠ pendingState.mem.read 0x000) :=
  ⟨⟨_, rfl, by decide⟩, _, rfl, by decide⟩
theorem witness_CycleTakesItsTableOfTicks :
    (claState.AtBoundary ∧ claState.fetched = .ok .cla ∧ ∃ u t, exec .cla claState.fetch.decodePhase = .next u ∧
      step claState = .next t) ∧
    (illegalState.fetched = .error (.registerReferenceSelector 0x003) ∧ ∃ t, step illegalState = .next t) :=
  ⟨⟨⟨rfl, rfl, rfl⟩, rfl, _, _, rfl, rfl⟩, rfl, _, rfl⟩
theorem witness_EveryCycleCompletes : claState.AtBoundary := ⟨rfl, rfl, rfl⟩
theorem witness_InvariantHoldsAfterConstruction : { defaultConfig with szaTicks := 1, rtiSelector := 0x001 }.wf = true := by
  decide
/-- A state of the invariant that is not the reset state, and its step. -/
theorem witness_StepKeepsTheInvariant : claState.Inv ∧ ∃ t, step claState = .next t :=
  ⟨⟨by decide, by decide, by decide, rfl, by decide, .inl ⟨rfl, rfl, rfl, (by decide : 0 < cycleCeiling)⟩, by decide⟩,
   _, rfl⟩
/-- A running engine, and one that has ended. -/
theorem witness_EveryRunEndsWithinTwoHundredCycles :
    (claState.Inv ∧ claState.Running) ∧ ((claState.halt .runaway).Inv ∧ (claState.halt .runaway).Ended) :=
  ⟨⟨witness_StepKeepsTheInvariant.1, rfl, rfl, rfl, (by decide : 0 < cycleCeiling)⟩,
   ⟨by decide, by decide, by decide, rfl, by decide, .inr ⟨rfl, rfl, nofun⟩, by decide⟩, rfl, rfl, nofun⟩
/-- SEXT with PC from 0x800 on, where the signed value is negative. -/
theorem witness_RegisterWriteTruncates : (start 0x8FF 0x7800).config.pcWiden = .sext ∧ (start 0x8FF 0x7800).PC.toInt < 0 := by
  decide
theorem witness_CanonicalMemoriesThatReadAlikeAreEqual :
    Memory.wf [(0x000, 0x0000), (0xFFF, 0xFFFF)] ∧
    ∀ a : Addr, Memory.read [(0x000, 0x0000), (0xFFF, 0xFFFF)] a =
      (Memory.write [(0x000, 0x0000)] 0xFFF 0xFFFF).read a := ⟨by decide, fun _ => rfl⟩
theorem witness_RtiWithInputReadyReentersTheHandler :
    State.AtBoundary { start 0x003 0xF020 with FGI := true } ∧
    State.fetched { start 0x003 0xF020 with FGI := true } = .ok .rti := ⟨⟨rfl, rfl, rfl⟩, rfl⟩
theorem witness_StoreIsSeenByTheNextFetch :
    (start 0x010 0x3011).AtBoundary ∧ (start 0x010 0x3011).fetched = .ok (.sta false 0x011) ∧
    (start 0x010 0x3011).effectiveAddress false 0x011 = (start 0x010 0x3011).PC + 1 ∧
    ¬ ((start 0x010 0x3011).IEN = true ∧ (start 0x010 0x3011).FGI = true) ∧ (start 0x010 0x3011).CYC + 5 < 600 :=
  ⟨⟨rfl, rfl, rfl⟩, rfl, by decide, nofun, by decide⟩
theorem witness_UsedFlagsAreForReportingOnly : ∃ t, step (start 0x010 0x3100) = .next t ∧ t.used = [0x100] := ⟨_, rfl, rfl⟩

end Sys2Proof.Tests
end

section
/-! PROOFS of the family 10_state.md: the input device over a step (R33) and the snapshot (R34, R124). -/

namespace Sys2Proof.Machine

/-! The input device's cursor, script and register -/

/-- `t` has the input script, the cursor and INPR as `s` has them. -/
structure State.SameDevice (s t : State) : Prop where
  config : t.config = s.config
  EVQ : t.EVQ = s.EVQ
  INPR : t.INPR = s.INPR

theorem State.SameDevice.trans {s t u : State} (hst : s.SameDevice t) (htu : t.SameDevice u) : s.SameDevice u :=
  ⟨htu.config.trans hst.config, htu.EVQ.trans hst.EVQ, htu.INPR.trans hst.INPR⟩

/-- From `s` to `t` the device delivers nothing, or the one event at its cursor, which raises FGI (R33, R117). -/
def State.DeliversAtMostOne (s t : State) : Prop :=
  (t.EVQ = s.EVQ ∧ t.INPR = s.INPR) ∨
  (t.EVQ = s.EVQ + 1 ∧ ∃ event, s.config.inputEvents[s.EVQ]? = some event ∧ t.INPR = event.value ∧ t.FGI = true)

theorem State.SameDevice.deliversAtMostOne {s t : State} (h : s.SameDevice t) : s.DeliversAtMostOne t :=
  .inl ⟨h.EVQ, h.INPR⟩

/-- What leaves the device as it is may come before a delivery. -/
theorem State.SameDevice.trans_delivers {s t u : State} (h : s.SameDevice t) (hd : t.DeliversAtMostOne u) :
    s.DeliversAtMostOne u := by
  unfold State.DeliversAtMostOne at hd ⊢
  rwa [h.config, h.EVQ, h.INPR] at hd

theorem State.fetch_decodePhase_sameDevice (s : State) : s.SameDevice s.fetch.decodePhase := ⟨rfl, rfl, rfl⟩

theorem State.addressOperand_sameDevice (indirect : Bool) (addr : Addr) (s : State) :
    s.SameDevice (s.addressOperand indirect addr) := by
  rw [State.addressOperand_eq]
  exact ⟨rfl, rfl, rfl⟩

/-- No instruction touches the device: INP reads INPR and clears FGI, but the cursor stays (R92). -/
theorem exec_sameDevice {i : Instr} {s t : State} (h : exec i s = .next t) : s.SameDevice t := by
  cases i
  case and indirect addr | add indirect addr | lda indirect addr | sta indirect addr | bun indirect addr
      | bsa indirect addr | isz indirect addr =>
    cases h
    exact (s.addressOperand_sameDevice indirect addr).trans ⟨rfl, rfl, rfl⟩
  all_goals
    cases h
    exact ⟨rfl, rfl, rfl⟩

theorem State.deliverInputEvent_deliversAtMostOne (s : State) : s.DeliversAtMostOne s.deliverInputEvent := by
  rcases s.deliverInputEvent_cases with ⟨event, hat, -, -, h⟩ | ⟨-, h⟩
  · rw [h]
    exact .inr ⟨rfl, event, hat, rfl, rfl⟩
  · rw [h]
    exact .inl ⟨rfl, rfl⟩

/-- An interrupt entry, where there is one, comes before INTERRUPT_CHECK's one delivery attempt and leaves the device. -/
theorem State.interruptCheck_deliversAtMostOne (s : State) : s.DeliversAtMostOne s.interruptCheck := by
  by_cases h : s.IEN = true ∧ s.FGI = true
  · rw [s.interruptCheck_pending h]
    exact State.SameDevice.trans_delivers ⟨rfl, rfl, rfl⟩ (State.deliverInputEvent_deliversAtMostOne _)
  · rw [s.interruptCheck_not_pending h]
    exact State.SameDevice.trans_delivers ⟨rfl, rfl, rfl⟩ (State.deliverInputEvent_deliversAtMostOne _)

/-- After EXECUTE the device gets one attempt at most: HLT leaves none, and the runaway guard adds none. -/
theorem State.finishCycle_deliversAtMostOne (s : State) : s.DeliversAtMostOne s.finishCycle := by
  rcases s.finishCycle_cases with ⟨-, h⟩ | ⟨-, h⟩
  · rw [h]
    exact .inl ⟨rfl, rfl⟩
  · rw [h]
    rcases s.interruptCheck.runawayCheck_cases with ⟨-, hg⟩ | ⟨-, hg⟩ <;>
      · rw [hg]
        exact s.interruptCheck_deliversAtMostOne

/-- Settles O38: FETCH, DECODE and EXECUTE leave the device, so a step delivers what the end of the cycle delivers; a
decode failure delivers nothing. -/
theorem inputEventsAreConsumedOnceInOrder : Obligations.InputEventsAreConsumedOnceInOrder := by
  intro s t hstep
  obtain ⟨-, ⟨_, -, rfl⟩ | ⟨_, u, -, hexec, rfl⟩⟩ := step_next_cases hstep
  · exact (s.fetch_decodePhase_sameDevice.trans ⟨rfl, rfl, rfl⟩).deliversAtMostOne
  · exact (s.fetch_decodePhase_sameDevice.trans (exec_sameDevice hexec)).trans_delivers u.finishCycle_deliversAtMostOne

/-! The snapshot -/

/-- Settles O60: each level's parts by evaluation, and level 5's cells as the used addresses with the words there. -/
theorem snapshotShowsItsLevel : Obligations.SnapshotShowsItsLevel := by
  intro s
  refine ⟨rfl, rfl, rfl, rfl, s.used.map fun a => (a, Memory.lookup s.mem a), rfl, ?addresses, ?words⟩
  case addresses => simp [Function.comp_def]
  case words =>
    intro a v hcell
    obtain ⟨_, -, hpair⟩ := List.mem_map.mp hcell
    cases hpair
    rfl

end Sys2Proof.Machine
end

section
/-! PROOFS of the family 20_memory.md: the fill that reads as HLT (R42) and the "has been written" flags (R44). -/

namespace Sys2Proof.Machine

/-! What a step from a cycle boundary answers, by what the fetched word decodes to: the converse of `step_next_cases` -/

theorem step_of_decode_error {s : State} {r : Reject} (hb : s.phase = .fetch ∧ s.S = true ∧ s.R = false)
    (hd : decode s.config (s.mem.read s.PC) = .error r) : step s = .next (s.fetch.decodePhase.halt .decodeFailure) := by
  have hd : decode s.fetch.decodePhase.config s.fetch.decodePhase.IR = .error r := hd
  simp only [step_eq_cycle hb, cycle, hd, State.raiseDecodeFailure]

theorem step_of_exec_next {s u : State} {i : Instr} (hb : s.phase = .fetch ∧ s.S = true ∧ s.R = false)
    (hd : decode s.config (s.mem.read s.PC) = .ok i) (hu : exec i s.fetch.decodePhase = .next u) :
    step s = .next u.finishCycle := by
  have hd : decode s.fetch.decodePhase.config s.fetch.decodePhase.IR = .ok i := hd
  simp only [step_eq_cycle hb, cycle, hd, hu]

/-! The fill -/

/-- The load leaves an address that the image does not mention. -/
theorem State.loadImage_read_of_not_mentioned {image : List (Addr × Word)} {a : Addr}
    (absent : ∀ entry ∈ image, entry.1 ≠ a) (s : State) : (s.loadImage image).mem.read a = s.mem.read a := by
  induction image generalizing s with
  | nil => rfl
  | cons entry rest ih =>
    obtain ⟨hentry, hrest⟩ := List.forall_mem_cons.mp absent
    calc ((s.loadWord entry.1 entry.2).loadImage rest).mem.read a
        = (s.loadWord entry.1 entry.2).mem.read a := ih hrest _
      _ = s.mem.read a := s.mem.read_write_other entry.2 hentry.symm

/-- The fill is HLT's word, whatever the parameters. -/
theorem decode_memFill (c : Config) : decode c memFill = .ok .hlt := rfl

/-- Settles O6: the load's writes are elsewhere, over a memory that lists nothing; and the fill decodes to HLT, after which
nothing follows in the cycle. -/
theorem unloadedMemoryHoldsTheHltEncoding : Obligations.UnloadedMemoryHoldsTheHltEncoding := by
  refine ⟨fun c image p a absent => ?unseeded, fun s hb hword => ?halts⟩
  case unseeded => exact (State.initial c).loadImage_read_of_not_mentioned absent
  case halts =>
    have hd : decode s.config (s.mem.read s.PC) = .ok .hlt := hword ▸ decode_memFill s.config
    exact ⟨_, step_of_exec_next hb hd rfl, rfl, rfl⟩

/-! The "has been written" flags -/

/-- `t` is `s` but for the flags. -/
def State.SameButUsed (s t : State) : Prop := ∃ u : UsedSet, t = { s with used := u }

theorem State.SameButUsed.fetch_decodePhase {s t : State} (h : s.SameButUsed t) :
    s.fetch.decodePhase.SameButUsed t.fetch.decodePhase := by
  obtain ⟨u, rfl⟩ := h
  exact ⟨u, rfl⟩

/-- No instruction's result depends on the flags: STA, BSA and ISZ mark their address, the others leave the set. -/
theorem State.SameButUsed.exec_next {i : Instr} {s t s' : State} (h : s.SameButUsed t) (hexec : exec i s = .next s') :
    ∃ t', exec i t = .next t' ∧ s'.SameButUsed t' := by
  obtain ⟨u, rfl⟩ := h
  cases i
  case and indirect addr | add indirect addr | lda indirect addr | sta indirect addr | bun indirect addr
      | bsa indirect addr | isz indirect addr =>
    cases hexec
    cases indirect
    case false => exact ⟨_, rfl, _, rfl⟩
    case true => exact ⟨_, rfl, _, rfl⟩
  all_goals
    cases hexec
    exact ⟨_, rfl, u, rfl⟩

theorem State.SameButUsed.deliverInputEvent {s t : State} (h : s.SameButUsed t) :
    s.deliverInputEvent.SameButUsed t.deliverInputEvent := by
  obtain ⟨u, rfl⟩ := h
  simp only [State.deliverInputEvent]
  split
  · split
    · exact ⟨u, rfl⟩
    · exact ⟨u, rfl⟩
  · exact ⟨u, rfl⟩

/-- Whether an interrupt is taken does not depend on the flags; an entry marks address 0. -/
theorem State.SameButUsed.interruptCheck {s t : State} (h : s.SameButUsed t) :
    s.interruptCheck.SameButUsed t.interruptCheck := by
  obtain ⟨u, rfl⟩ := h
  by_cases hp : s.IEN = true ∧ s.FGI = true
  · rw [s.interruptCheck_pending hp, State.interruptCheck_pending { s with used := u } hp]
    exact State.SameButUsed.deliverInputEvent ⟨u.mark 0, rfl⟩
  · rw [s.interruptCheck_not_pending hp, State.interruptCheck_not_pending { s with used := u } hp]
    exact State.SameButUsed.deliverInputEvent ⟨u, rfl⟩

theorem State.SameButUsed.runawayCheck {s t : State} (h : s.SameButUsed t) :
    s.runawayCheck.SameButUsed t.runawayCheck := by
  obtain ⟨u, rfl⟩ := h
  simp only [State.runawayCheck]
  split
  · exact ⟨u, rfl⟩
  · exact ⟨u, rfl⟩

theorem State.SameButUsed.finishCycle {s t : State} (h : s.SameButUsed t) : s.finishCycle.SameButUsed t.finishCycle := by
  have hS : t.S = s.S := by
    obtain ⟨u, rfl⟩ := h
    rfl
  simp only [State.finishCycle, hS]
  split
  · exact h.interruptCheck.runawayCheck
  · exact h

/-- Every phase of the cycle keeps two states the same but for the flags. -/
theorem State.SameButUsed.step_next {s t s' : State} (h : s.SameButUsed t) (hstep : step s = .next s') :
    ∃ t', step t = .next t' ∧ s'.SameButUsed t' := by
  have hexecute := h.fetch_decodePhase
  obtain ⟨hb, ⟨r, hr, rfl⟩ | ⟨i, v, hi, hv, rfl⟩⟩ := step_next_cases hstep
  · obtain ⟨u, rfl⟩ := h
    exact ⟨_, step_of_decode_error hb hr, u, rfl⟩
  · obtain ⟨v', hv', hsame⟩ := hexecute.exec_next hv
    obtain ⟨u, rfl⟩ := h
    exact ⟨_, step_of_exec_next hb hi hv', hsame.finishCycle⟩

/-- Settles O59: a write marks its own address; and no phase of a step reads the flags. -/
theorem usedFlagsAreForReportingOnly : Obligations.UsedFlagsAreForReportingOnly := by
  refine ⟨fun s a b v => ?marks, fun s t u hstep => ?unread⟩
  case marks => rw [State.writeMem_used, UsedSet.mem_mark, BitVec.toNat_inj]
  case unread =>
    have hsame : s.SameButUsed { s with used := u } := ⟨u, rfl⟩
    obtain ⟨_, hstep', u', rfl⟩ := hsame.step_next hstep
    exact ⟨u', hstep'⟩

end Sys2Proof.Machine
end

section
/-! PROOFS of the family 30_encoding.md: the register-reference words (R58). -/

namespace Sys2Proof.Machine

/-- A vector has exactly one bit set when it is a power of two. -/
theorem countP_getElem_eq_one_iff {w : Nat} (x : BitVec w) :
    (List.finRange w).countP (fun k => x[k]) = 1 ↔ ∃ k : Fin w, x = BitVec.twoPow w k := by
  constructor
  case mp =>
    intro hcount
    rw [List.countP_eq_length_filter, List.length_eq_one_iff] at hcount
    obtain ⟨k, hfilter⟩ := hcount
    have honly : ∀ j : Fin w, x[j] = true ↔ j = k := by
      intro j
      have hmem : j ∈ (List.finRange w).filter (fun k => x[k]) ↔ j ∈ [k] := by rw [hfilter]
      simpa using hmem
    refine ⟨k, BitVec.eq_of_getElem_eq fun j hj => ?_⟩
    rw [Bool.eq_iff_iff, BitVec.getElem_twoPow, decide_eq_true_iff]
    exact (honly ⟨j, hj⟩).trans Fin.ext_iff
  case mpr =>
    rintro ⟨k, rfl⟩
    calc (List.finRange w).countP (fun j => (BitVec.twoPow w k)[j])
        = (List.finRange w).count k := List.countP_congr fun j _ => by simp [Fin.ext_iff]
      _ = 1 := List.count_eq_one_of_mem (List.nodup_finRange w) (List.mem_finRange k)

/-- The selectors of R59 are the twelve powers of two. -/
theorem mem_registerReferenceTable_selectors_iff (sel : Addr) :
    sel ∈ registerReferenceTable.map Prod.fst ↔ ∃ k : Fin 12, sel = BitVec.twoPow 12 k := by
  have hrows : registerReferenceTable.map Prod.fst = ((List.finRange 12).map fun k => BitVec.twoPow 12 k).reverse := by
    decide
  simp [hrows, eq_comm]

/-- A register-reference selector names an instruction exactly when some row of the table has it. -/
theorem decodeRegisterReference_ok_iff (sel : Addr) :
    (∃ i, decodeRegisterReference sel = .ok i) ↔ sel ∈ registerReferenceTable.map Prod.fst := by
  rw [← not_iff_not, ← selectorLookup_eq_none]
  cases h : selectorLookup registerReferenceTable sel <;> simp [decodeRegisterReference, h]

/-- With I = 0 and D = 7 the selector alone decides (R58). -/
theorem decode_registerReferenceWord (c : Config) (sel : Addr) :
    decode c (instrWord false 7 sel) = decodeRegisterReference sel :=
  (decode_instrWord c false 7 sel).trans rfl

/-- Settles O4: the word is an instruction when its selector is in the table, whose selectors are the powers of two, which
are the vectors with one bit set. -/
theorem registerReferenceWordLegalIffOneBitSet : Obligations.RegisterReferenceWordLegalIffOneBitSet := by
  intro c sel
  calc (∃ i, decode c (instrWord false 7 sel) = .ok i)
      ↔ ∃ i, decodeRegisterReference sel = .ok i := by rw [decode_registerReferenceWord]
    _ ↔ sel ∈ registerReferenceTable.map Prod.fst := decodeRegisterReference_ok_iff sel
    _ ↔ ∃ k : Fin 12, sel = BitVec.twoPow 12 k := mem_registerReferenceTable_selectors_iff sel
    _ ↔ (List.finRange 12).countP (fun k => sel[k]) = 1 := (countP_getElem_eq_one_iff sel).symm

end Sys2Proof.Machine
end

section
/-! PROOFS of the family 40_instruction_cycle.md: FETCH (R68). -/

namespace Sys2Proof.Machine

/-- The state FETCH leaves, every field given. -/
theorem State.fetch_eq (s : State) :
    s.fetch = { s with AR := s.PC, IR := s.mem.read s.PC, PC := s.PC + 1, CYC := s.CYC + 2, phase := .decode } := rfl

/-- PC advances on 12 bits. -/
@[simp] theorem State.fetch_PC (s : State) : s.fetch.PC = s.PC + 1 := rfl

/-- Settles O10: the whole state is FETCH's equation, and the last address plus one is zero on 12 bits. -/
theorem fetchReadsTheWordAtPcAndAdvances : Obligations.FetchReadsTheWordAtPcAndAdvances := by
  refine fun s => ⟨?state, fun hlast => ?wraps⟩
  case state => exact s.fetch_eq
  case wraps =>
    calc s.fetch.PC = s.PC + 1 := s.fetch_PC
      _ = 0xFFF + 1 := by rw [hlast]
      _ = 0x000 := by decide

end Sys2Proof.Machine
end

section
/-! PROOFS of the family 41_memory_reference.md: AND, ADD, LDA, STA, BUN, BSA and ISZ (R73 to R79). -/

namespace Sys2Proof.Machine

/-- The word of a row of R57 decodes to that row's instruction, whatever the parameters. -/
theorem decode_memoryReferenceWord {d : BitVec 3} {indirect : Bool} {addr : Addr} {i : Instr} (c : Config)
    (hrow : memoryReferenceInstr d indirect addr = some i) :
    decode c (BitVec.ofBool indirect ++ d ++ addr) = .ok i := by
  have hfields := decode_instrWord c indirect d addr
  rw [hrow] at hfields
  exact hfields

/-! The unsigned sum of ADD -/

/-- 17 bits hold the sum of two words. -/
theorem toNat_sum17 (a b : Word) : (sum17 a b).toNat = a.toNat + b.toNat := by
  simp only [sum17, BitVec.toNat_add, BitVec.toNat_setWidth]
  omega

/-- AC after ADD is the sum on 16 bits. -/
theorem addResult_eq_add (a b : Word) : addResult a b = a + b := by
  apply BitVec.eq_of_toNat_eq
  simp [addResult, toNat_sum17]

/-- The carry is the top bit of the 17, so it is set when the sum reaches 2^16. -/
theorem addCarry_eq_decide (a b : Word) : addCarry a b = decide (65536 ≤ a.toNat + b.toNat) :=
  calc addCarry a b
      = (sum17 a b).msb := (sum17 a b).msb_eq_getLsbD_last.symm
    _ = decide (65536 ≤ (sum17 a b).toNat) := (sum17 a b).msb_eq_decide
    _ = decide (65536 ≤ a.toNat + b.toNat) := by rw [toNat_sum17]

/-- The condition of ISZ's skip, on the word before the increment. -/
theorem isZero_increment_iff (w : Word) : isZero (Register.increment w) = true ↔ w = 0xFFFF :=
  calc isZero (Register.increment w) = true
      ↔ w + 1 = 0 := beq_iff_eq
    _ ↔ w = -1 := add_eq_zero_iff_eq_neg

/-! The whole state that ADD and the three stores answer, in the model's own terms, memory and flags included. For the
other three the obligation is that equation. Each form is one evaluation, in which the indirect one adds its tick to the
instruction's own (R70). -/

theorem exec_add (s : State) (indirect : Bool) (addr : Addr) :
    exec (.add indirect addr) s = .next { s with
      AR := s.effectiveAddress indirect addr
      DR := s.mem.read (s.effectiveAddress indirect addr)
      AC := addResult s.AC (s.mem.read (s.effectiveAddress indirect addr))
      E := addCarry s.AC (s.mem.read (s.effectiveAddress indirect addr))
      CYC := s.CYC + if indirect then 3 else 2 } := by
  cases indirect <;> rfl

theorem exec_sta (s : State) (indirect : Bool) (addr : Addr) :
    exec (.sta indirect addr) s = .next { s with
      AR := s.effectiveAddress indirect addr
      CYC := s.CYC + if indirect then 2 else 1
      mem := s.mem.write (s.effectiveAddress indirect addr) s.AC
      used := s.used.mark (s.effectiveAddress indirect addr).toNat } := by
  cases indirect <;> rfl

theorem exec_bsa (s : State) (indirect : Bool) (addr : Addr) :
    exec (.bsa indirect addr) s = .next { s with
      AR := s.effectiveAddress indirect addr + 1
      PC := s.effectiveAddress indirect addr + 1
      CYC := s.CYC + if indirect then 3 else 2
      mem := s.mem.write (s.effectiveAddress indirect addr) (widenPC s.config s.PC)
      used := s.used.mark (s.effectiveAddress indirect addr).toNat } := by
  cases indirect <;> rfl

theorem exec_isz (s : State) (indirect : Bool) (addr : Addr) :
    exec (.isz indirect addr) s = .next { s with
      AR := s.effectiveAddress indirect addr
      DR := s.mem.read (s.effectiveAddress indirect addr) + 1
      PC := if isZero (Register.increment (s.mem.read (s.effectiveAddress indirect addr))) then s.PC + 1 else s.PC
      CYC := s.CYC + if indirect then 4 else 3
      mem := s.mem.write (s.effectiveAddress indirect addr) (s.mem.read (s.effectiveAddress indirect addr) + 1)
      used := s.used.mark (s.effectiveAddress indirect addr).toNat } := by
  cases indirect <;> rfl

/-! The obligations -/

/-- Settles O13: row 0 of R57, and AND in each form. -/
theorem andMasksAccumulatorWithMemory : Obligations.AndMasksAccumulatorWithMemory := by
  refine fun s indirect addr => ⟨decode_memoryReferenceWord s.config rfl, ?effect⟩
  case effect => cases indirect <;> rfl

/-- Settles O14: ADD's 17-bit sum read as the sum modulo 2^16 and as the comparison of the unsigned sum with 2^16. -/
theorem addSumsAndSetsCarryFromUnsignedSum : Obligations.AddSumsAndSetsCarryFromUnsignedSum := by
  refine fun s indirect addr => ⟨decode_memoryReferenceWord s.config rfl, ?effect⟩
  case effect => rw [exec_add, addResult_eq_add, addCarry_eq_decide]

/-- Settles O15: row 2 of R57, and LDA in each form. -/
theorem ldaLoadsAccumulatorThroughDr : Obligations.LdaLoadsAccumulatorThroughDr := by
  refine fun s indirect addr => ⟨decode_memoryReferenceWord s.config rfl, ?effect⟩
  case effect => cases indirect <;> rfl

/-- Settles O16: the memory of STA's state equation, read word by word. -/
theorem staStoresAccumulator : Obligations.StaStoresAccumulator :=
  fun s indirect addr =>
    ⟨decode_memoryReferenceWord s.config rfl, _, exec_sta s indirect addr, rfl, fun a => s.mem.read_write _ a _⟩

/-- Settles O17: row 4 of R57, and BUN in each form. -/
theorem bunJumpsToEffectiveAddress : Obligations.BunJumpsToEffectiveAddress := by
  refine fun s indirect addr => ⟨decode_memoryReferenceWord s.config rfl, ?effect⟩
  case effect => cases indirect <;> rfl

/-- Settles O18: the memory of BSA's state equation, read word by word. -/
theorem bsaStoresReturnAddressAndBranches : Obligations.BsaStoresReturnAddressAndBranches :=
  fun s indirect addr =>
    ⟨decode_memoryReferenceWord s.config rfl, _, exec_bsa s indirect addr, rfl, fun a => s.mem.read_write _ a _⟩

/-- Settles O19: the memory of ISZ's state equation, read word by word, and its skip told by the word before the
increment. -/
theorem iszIncrementsMemoryAndSkipsOnZero : Obligations.IszIncrementsMemoryAndSkipsOnZero := by
  refine fun s indirect addr =>
    ⟨decode_memoryReferenceWord s.config rfl, _, exec_isz s indirect addr, ?state, fun a => s.mem.read_write _ a _⟩
  case state => simp only [isZero_increment_iff]

end Sys2Proof.Machine
end

section
/-! PROOFS of the family 42_register_reference.md: CLA, CLE, CMA, CME, CIR, CIL, INC, SPA and SZE (R80 to R87, R90). -/

namespace Sys2Proof.Machine

/-- The word of a row of R59 decodes to that row's instruction, whatever the parameters. -/
theorem decode_registerReferenceRow {sel : Addr} {i : Instr} (c : Config)
    (hrow : selectorLookup registerReferenceTable sel = some i) : decode c (instrWord false 7 sel) = .ok i := by
  rw [decode_registerReferenceWord, decodeRegisterReference, hrow]

/-! The rotations through E, by fields of bits -/

/-- A flag's word holds the flag in its lowest bit and nothing above it. -/
@[simp] theorem getElem_flagWord (e : Bool) (k : Nat) (hk : k < 16) : (flagWord e)[k] = (decide (k = 0) && e) := by
  cases k <;> simp [flagWord]

/-- AC after CIR is E over the old AC[15:1]. -/
theorem rotateRightAc_eq_append (ac : Word) (e : Bool) : rotateRightAc ac e = BitVec.ofBool e ++ ac.extractLsb 15 1 := by
  refine BitVec.eq_of_getLsbD_eq fun k hk => ?_
  simp only [rotateRightAc, BitVec.getLsbD_append, BitVec.getLsbD_extractLsb]
  rcases Nat.lt_or_eq_of_le (Nat.le_of_lt_succ hk) with hlow | rfl
  case inl => simp [hlow]
  case inr => simp

/-- AC after CIL is the old AC[14:0] over E. -/
theorem rotateLeftAc_eq_append (ac : Word) (e : Bool) : rotateLeftAc ac e = ac.extractLsb 14 0 ++ BitVec.ofBool e := by
  refine BitVec.eq_of_getLsbD_eq fun k hk => ?_
  simp only [rotateLeftAc, BitVec.getLsbD_append, BitVec.getLsbD_extractLsb]
  cases k with
  | zero => simp
  | succ k =>
    have hlow : k < 15 := Nat.lt_of_succ_lt_succ hk
    simp [hk, hlow, BitVec.getLsbD_eq_getElem (Nat.lt_of_succ_lt hk)]

/-! The skips -/

/-- The sign bit is set exactly on the words that read as negative. -/
theorem signBit_eq_decide (v : Word) : signBit v = decide (v.toInt < 0) :=
  calc signBit v
      = v.msb := v.msb_eq_getLsbD_last.symm
    _ = decide (v.toInt < 0) := v.msb_eq_toInt

/-- A skip under a test that decides `p` is a skip under `p`. -/
theorem State.skipIf_eq_of_iff {b : Bool} {p : Prop} [Decidable p] (s : State) (h : b = true ↔ p) :
    s.skipIf b = { s with PC := if p then s.PC + 1 else s.PC } := by
  simp only [State.skipIf, Register.increment_eq, h]

/-- SPA's test is on the sign of the value the word reads as. -/
theorem not_signBit_iff (v : Word) : (!signBit v) = true ↔ 0 ≤ v.toInt := by
  simp [signBit_eq_decide]

/-! The obligations -/

/-- Settles O22: the shifts of CIR read as fields of bits. -/
theorem cirRotatesRightThroughCarry : Obligations.CirRotatesRightThroughCarry := by
  refine fun s => ⟨decode_registerReferenceRow (sel := 0x080) s.config rfl, ?effect⟩
  case effect => rw [← rotateRightAc_eq_append]; rfl

/-- Settles O23: the shifts of CIL read as fields of bits. -/
theorem cilRotatesLeftThroughCarry : Obligations.CilRotatesLeftThroughCarry := by
  refine fun s => ⟨decode_registerReferenceRow (sel := 0x040) s.config rfl, ?effect⟩
  case effect => rw [← rotateLeftAc_eq_append]; rfl

/-- Settles O20: three rows of R59, and the state each instruction answers. -/
theorem clearComplementIncrementAccumulator : Obligations.ClearComplementIncrementAccumulator :=
  fun s =>
    ⟨⟨decode_registerReferenceRow (sel := 0x800) s.config rfl, rfl⟩,
     ⟨decode_registerReferenceRow (sel := 0x200) s.config rfl, rfl⟩,
     ⟨decode_registerReferenceRow (sel := 0x020) s.config rfl, rfl⟩⟩

/-- Settles O21: two rows of R59, and the state each instruction answers. -/
theorem clearAndComplementCarry : Obligations.ClearAndComplementCarry :=
  fun s =>
    ⟨⟨decode_registerReferenceRow (sel := 0x400) s.config rfl, rfl⟩,
     ⟨decode_registerReferenceRow (sel := 0x100) s.config rfl, rfl⟩⟩

/-- Settles O25: each skip under the condition its test decides. -/
theorem spaAndSzeSkipOnTheirConditions : Obligations.SpaAndSzeSkipOnTheirConditions := by
  refine fun s =>
    ⟨⟨decode_registerReferenceRow (sel := 0x010) s.config rfl, ?spa⟩,
     ⟨decode_registerReferenceRow (sel := 0x002) s.config rfl, ?sze⟩⟩
  case spa => exact congrArg (fun t : State => Host.Outcome.next (t.tick 1)) (s.skipIf_eq_of_iff (not_signBit_iff s.AC))
  case sze => exact congrArg (fun t : State => Host.Outcome.next (t.tick 1)) (s.skipIf_eq_of_iff (iff_of_eq (Bool.not_eq_true' s.E)))

end Sys2Proof.Machine
end

section
/-! PROOFS of the family 43_input_output.md: INP, OUT, SKI, SKO, ION, IOF and RTI (R92 to R98). -/

namespace Sys2Proof.Machine

/-! The I/O words (R60) -/

/-- The word of a row of R60 decodes to that row's instruction, under parameters that give the row. -/
theorem decode_inputOutputRow {c : Config} {sel : Addr} {i : Instr}
    (hrow : selectorLookup (inputOutputTable c) sel = some i) : decode c (instrWord true 7 sel) = .ok i := by
  have hfamily : decode c (instrWord true 7 sel) = decodeInputOutput c sel := (decode_instrWord c true 7 sel).trans rfl
  rw [hfamily, decodeInputOutput, hrow]

/-- The admissible parameters, as the three checks of R8. -/
theorem config_wf_iff {c : Config} :
    c.wf = true ↔ c.rtiSelectorWf = true ∧ c.hltTicksWf = true ∧ c.szaTicksWf = true := by
  simp [Config.wf, and_assoc]

/-- An admissible selector is none of the six that R61 tests before RTI's. -/
theorem selectorLookup_rtiSelector {c : Config} (h : c.rtiSelectorWf = true) :
    selectorLookup (inputOutputTable c) c.rtiSelector = some .rti := by
  have hmem : c.rtiSelector ∈ rtiSelectors := List.contains_iff_mem.mp h
  have hfree : ∀ sel ∈ rtiSelectors, sel ∉ [0x800#12, 0x400#12, 0x200#12, 0x100#12, 0x080#12, 0x040#12] := by decide
  have hother := hfree _ hmem
  simp only [List.mem_cons, List.not_mem_nil, or_false, not_or] at hother
  simp [inputOutputTable, selectorLookup, eq_comm, hother]

/-- The high four bits 0xF and the selector do not overlap, so the word is their sum. -/
theorem instrWord_inputOutput_eq_add (sel : Addr) : instrWord true 7 sel = 0xF000 + sel.setWidth 16 := by
  have hlt : sel.toNat < 2 ^ 12 := sel.isLt
  apply BitVec.eq_of_toNat_eq
  calc (instrWord true 7 sel).toNat
      = 0xF <<< 12 ||| sel.toNat := BitVec.toNat_append _ _
    _ = 0xF <<< 12 + sel.toNat := (Nat.shiftLeft_add_eq_or_of_lt hlt _).symm
    _ = (0xF000 + sel.setWidth 16).toNat := by
      simp only [BitVec.toNat_add, BitVec.toNat_setWidth, BitVec.ofNat_eq_ofNat, BitVec.toNat_ofNat]
      omega

/-! INTERRUPT_CHECK's effect on PC and memory (R72, R108), which the delivery attempt leaves -/

@[simp] theorem State.deliverInputEvent_PC (s : State) : s.deliverInputEvent.PC = s.PC := by
  rw [s.deliverInputEvent_frame]

@[simp] theorem State.deliverInputEvent_mem (s : State) : s.deliverInputEvent.mem = s.mem := by
  rw [s.deliverInputEvent_frame]

/-- With the interrupt pending, the check jumps to the handler and leaves the return address at address 0. -/
theorem State.interruptCheck_entry {s : State} (h : s.IEN = true ∧ s.FGI = true) :
    s.interruptCheck.PC = 0x001 ∧ s.interruptCheck.mem.read 0x000 = widenPC s.config s.PC := by
  simp [s.interruptCheck_pending h, State.interruptEntry_eq]

/-- With interrupts disabled, the check leaves PC and memory. -/
theorem State.interruptCheck_disabled {s : State} (h : s.IEN = false) :
    s.interruptCheck.PC = s.PC ∧ s.interruptCheck.mem = s.mem := by
  simp [s.interruptCheck_not_pending (by simp [h])]

/-! The obligations -/

/-- Settles O29: INP's row of R60, and the state it answers. -/
theorem inpReadsInputByteAndClearsFgi : Obligations.InpReadsInputByteAndClearsFgi :=
  fun _ => ⟨decode_inputOutputRow (sel := 0x800) rfl, rfl⟩

/-- Settles O30: OUT's row of R60, and the state it answers. -/
theorem outWritesLowByteAndClearsFgo : Obligations.OutWritesLowByteAndClearsFgo :=
  fun _ => ⟨decode_inputOutputRow (sel := 0x400) rfl, rfl⟩

/-- Settles O31: two rows of R60, and each skip under its flag. -/
theorem skiAndSkoSkipOnTheirFlags : Obligations.SkiAndSkoSkipOnTheirFlags :=
  fun _ => ⟨⟨decode_inputOutputRow (sel := 0x200) rfl, rfl⟩, ⟨decode_inputOutputRow (sel := 0x100) rfl, rfl⟩⟩

/-- Settles O32: the state ION answers has IEN = 1, so the check takes the interrupt when FGI = 1; the state IOF answers
has IEN = 0, so the check takes none. -/
theorem ionAndIofSetAndClearInterruptEnable : Obligations.IonAndIofSetAndClearInterruptEnable := by
  refine fun s =>
    ⟨⟨decode_inputOutputRow (sel := 0x080) rfl, rfl, fun hready t hion => ?taken⟩,
     ⟨decode_inputOutputRow (sel := 0x040) rfl, rfl, fun t hiof => ?notTaken⟩⟩
  case taken =>
    cases hion
    exact State.interruptCheck_entry ⟨rfl, hready⟩
  case notTaken =>
    cases hiof
    exact State.interruptCheck_disabled rfl

/-- Settles O33: RTI's row of R60, which an admissible selector reaches, and the return through address 0. -/
theorem rtiReturnsThroughAddressZero : Obligations.RtiReturnsThroughAddressZero := by
  refine fun s => ⟨fun hwf => ?word, rfl⟩
  case word =>
    obtain ⟨hsel, -, -⟩ := config_wf_iff.mp hwf
    rw [← instrWord_inputOutput_eq_add]
    exact decode_inputOutputRow (selectorLookup_rtiSelector hsel)

end Sys2Proof.Machine
end

section
/-! PROOFS of the family 60_exceptions.md: interrupt entry (R109), when an interrupt is taken (R108), the writers of FGI and
IEN (R107), and the engine that never starts (R104). -/

namespace Sys2Proof.Machine

/-! Interrupt entry -/

/-- Settles O35: R is set by the first tick and kept by the second; the sequence's equation, and its one store read word by
word. -/
theorem interruptEntrySavesPcAndGoesToAddressOne : Obligations.InterruptEntrySavesPcAndGoesToAddressOne :=
  fun s => ⟨rfl, rfl, s.interruptEntry_eq, fun a => s.mem.read_write 0 a _⟩

/-! The control flags under EXECUTE -/

/-- What EXECUTE of `i` from `s` to `u` does to S, R, FGI and IEN: each but R has its own instructions that write it, with
the value they give it. -/
structure State.ControlFlagsWrittenBy (i : Instr) (s u : State) : Prop where
  S : (i = .hlt ∧ u.S = false) ∨ (i ≠ .hlt ∧ u.S = s.S)
  R : u.R = s.R
  FGI : u.FGI = s.FGI ∨ (i = .inp ∧ u.FGI = false)
  IEN : u.IEN = s.IEN ∨ ((i = .ion ∨ i = .rti) ∧ u.IEN = true) ∨ (i = .iof ∧ u.IEN = false)

theorem exec_controlFlags {i : Instr} {s u : State} (h : exec i s = .next u) : s.ControlFlagsWrittenBy i u := by
  cases i
  case and indirect _ | add indirect _ | lda indirect _ | sta indirect _ | bun indirect _ | bsa indirect _
      | isz indirect _ =>
    cases h
    cases indirect <;> exact ⟨.inr ⟨nofun, rfl⟩, rfl, .inl rfl, .inl rfl⟩
  case hlt => cases h; exact ⟨.inl ⟨rfl, rfl⟩, rfl, .inl rfl, .inl rfl⟩
  case inp => cases h; exact ⟨.inr ⟨nofun, rfl⟩, rfl, .inr ⟨rfl, rfl⟩, .inl rfl⟩
  case ion => cases h; exact ⟨.inr ⟨nofun, rfl⟩, rfl, .inl rfl, .inr (.inl ⟨.inl rfl, rfl⟩)⟩
  case rti => cases h; exact ⟨.inr ⟨nofun, rfl⟩, rfl, .inl rfl, .inr (.inl ⟨.inr rfl, rfl⟩)⟩
  case iof => cases h; exact ⟨.inr ⟨nofun, rfl⟩, rfl, .inl rfl, .inr (.inr ⟨rfl, rfl⟩)⟩
  all_goals
    cases h
    exact ⟨.inr ⟨nofun, rfl⟩, rfl, .inl rfl, .inl rfl⟩

/-- From a running state, HLT is the one instruction after which S is 0. -/
theorem State.ControlFlagsWrittenBy.S_eq_false_iff {i : Instr} {s u : State} (h : s.ControlFlagsWrittenBy i u)
    (running : s.S = true) : u.S = false ↔ i = .hlt := by
  rcases h.S with ⟨hi, hS⟩ | ⟨hi, hS⟩
  · simp [hi, hS]
  · simp [hi, hS, running]

/-! The end of a cycle -/

/-- `t` is `s` after at most one delivery and the runaway guard: the device writes INPR, FGI and EVQ, and FGI only by a
delivery (R117); the guard writes S, the phase and HALT_REASON (R103). -/
structure State.DeliveredAndGuarded (s t : State) : Prop where
  frame : t = { s with INPR := t.INPR, FGI := t.FGI, EVQ := t.EVQ, S := t.S, phase := t.phase, haltReason := t.haltReason }
  FGI : t.FGI = s.FGI ∨ (t.FGI = true ∧ t.EVQ = s.EVQ + 1)

theorem State.deliver_guard_deliveredAndGuarded (s : State) :
    s.DeliveredAndGuarded s.deliverInputEvent.runawayCheck := by
  rcases s.deliverInputEvent_cases with ⟨event, -, -, -, hdeliver⟩ | ⟨-, hdeliver⟩
  case inl =>
    rcases s.deliverInputEvent.runawayCheck_cases with ⟨-, hguard⟩ | ⟨-, hguard⟩ <;>
      · rw [hguard, hdeliver]
        exact ⟨rfl, .inr ⟨rfl, rfl⟩⟩
  case inr =>
    rcases s.deliverInputEvent.runawayCheck_cases with ⟨-, hguard⟩ | ⟨-, hguard⟩ <;>
      · rw [hguard, hdeliver]
        exact ⟨rfl, .inl rfl⟩

/-- The phase before them does not matter: the guard writes it. -/
theorem State.DeliveredAndGuarded.of_phase {s t : State} {p : Phase} (h : { s with phase := p }.DeliveredAndGuarded t) :
    s.DeliveredAndGuarded t :=
  ⟨h.frame, h.FGI⟩

/-- After HLT nothing follows (R101). -/
theorem State.finishCycle_of_stopped {u : State} (hS : u.S = false) : u.finishCycle = u := by
  simp [State.finishCycle, hS]

/-- After any other instruction INTERRUPT_CHECK and the guard follow (R66). -/
theorem State.finishCycle_of_running {u : State} (hS : u.S = true) : u.finishCycle = u.interruptCheck.runawayCheck := by
  simp [State.finishCycle, hS]

/-- With IEN = 1 and FGI = 1 the cycle ends with the interrupt-service sequence, then device and guard. -/
theorem State.finishCycle_of_pending {u : State} (hS : u.S = true) (h : u.IEN = true ∧ u.FGI = true) :
    u.interruptEntry.DeliveredAndGuarded u.finishCycle := by
  rw [State.finishCycle_of_running hS, u.interruptCheck_pending h]
  exact (State.deliver_guard_deliveredAndGuarded { u.interruptEntry with phase := .interruptCheck }).of_phase

/-- Without both, it ends with device and guard alone. -/
theorem State.finishCycle_of_not_pending {u : State} (hS : u.S = true) (h : ¬ (u.IEN = true ∧ u.FGI = true)) :
    u.DeliveredAndGuarded u.finishCycle := by
  rw [State.finishCycle_of_running hS, u.interruptCheck_not_pending h]
  exact (State.deliver_guard_deliveredAndGuarded { u with phase := .interruptCheck }).of_phase

/-- In every case the cycle ends from EXECUTE's state or from that state after an interrupt entry. -/
theorem State.finishCycle_deliveredAndGuarded (u : State) :
    u.DeliveredAndGuarded u.finishCycle ∨ u.interruptEntry.DeliveredAndGuarded u.finishCycle := by
  cases hS : u.S with
  | false =>
    rw [State.finishCycle_of_stopped hS]
    exact .inl ⟨rfl, .inl rfl⟩
  | true =>
    by_cases h : u.IEN = true ∧ u.FGI = true
    · exact .inr (State.finishCycle_of_pending hS h)
    · exact .inl (State.finishCycle_of_not_pending hS h)

/-- The end of a cycle that takes the interrupt, given in full from EXECUTE's state: the entry writes memory at address 0
only, and R is 0 again after it. -/
theorem State.DeliveredAndGuarded.interruptEntry_frame {u t : State} (h : u.interruptEntry.DeliveredAndGuarded t)
    (hR : u.R = false) :
    t = { u with PC := 0x001, AR := 0x000, IEN := false, TR := widenPC u.config u.PC, CYC := u.CYC + 3,
                 mem := t.mem, used := t.used, INPR := t.INPR, FGI := t.FGI, EVQ := t.EVQ,
                 S := t.S, phase := t.phase, haltReason := t.haltReason } ∧
    ∀ a, t.mem.read a = if a = 0x000 then widenPC u.config u.PC else u.mem.read a := by
  have hmem : t.mem = u.mem.write 0 (widenPC u.config u.PC) := congrArg State.mem h.frame
  have hused : t.used = u.used.mark 0 := congrArg State.used h.frame
  rw [hmem, hused, hR]
  exact ⟨h.frame, fun a => u.mem.read_write 0 a _⟩

/-- Settles O36: the cycle's end is `finishCycle` of EXECUTE's state, which HLT alone leaves with S = 0; its three cases are
the statement's. -/
theorem interruptTakenExactlyWhenEnabledAndReady : Obligations.InterruptTakenExactlyWhenEnabledAndReady := by
  refine ⟨fun s t u i hb hi hu hstep => ?legal, fun s t r hb hr hstep => ?illegal⟩
  case legal =>
    have ⟨_, hS, hR⟩ := hb
    have hflags : s.fetch.decodePhase.ControlFlagsWrittenBy i u := exec_controlFlags hu
    have huR : u.R = false := hflags.R.trans hR
    cases (step_of_exec_next hb hi hu).symm.trans hstep
    exact ⟨hflags.S_eq_false_iff hS,
      fun huS hpending => (State.finishCycle_of_pending huS hpending).interruptEntry_frame huR,
      fun huS hnone => (State.finishCycle_of_not_pending huS hnone).frame,
      State.finishCycle_of_stopped⟩
  case illegal =>
    cases (step_of_decode_error hb hr).symm.trans hstep
    rfl

/-! The writers of FGI and IEN over a step -/

theorem State.DeliveredAndGuarded.IEN {s t : State} (h : s.DeliveredAndGuarded t) : t.IEN = s.IEN :=
  (congrArg State.IEN h.frame :)

/-- Where an interrupt entry leaves the engine: at address 1, with the return address in TR and in address 0 (R109). -/
def State.AtHandler (t : State) : Prop := t.PC = 0x001 ∧ t.AR = 0x000 ∧ t.mem.read 0x000 = t.TR

theorem State.DeliveredAndGuarded.atHandler {u t : State} (h : u.interruptEntry.DeliveredAndGuarded t) :
    t.IEN = false ∧ t.AtHandler := by
  rw [h.frame]
  exact ⟨rfl, rfl, rfl, Memory.read_write_same _ _ _⟩

/-- After EXECUTE only a delivery writes FGI: an entry keeps it. -/
theorem State.finishCycle_FGI (u : State) :
    u.finishCycle.FGI = u.FGI ∨ (u.finishCycle.FGI = true ∧ u.finishCycle.EVQ = u.EVQ + 1) :=
  u.finishCycle_deliveredAndGuarded.elim State.DeliveredAndGuarded.FGI State.DeliveredAndGuarded.FGI

/-- After EXECUTE only an interrupt entry writes IEN. -/
theorem State.finishCycle_IEN (u : State) :
    u.finishCycle.IEN = u.IEN ∨ (u.finishCycle.IEN = false ∧ u.finishCycle.AtHandler) :=
  u.finishCycle_deliveredAndGuarded.imp State.DeliveredAndGuarded.IEN State.DeliveredAndGuarded.atHandler

/-- FGI over a step: INP clears it, a delivery sets it, nothing else writes it. -/
theorem step_FGI {s t : State} (h : step s = .next t) :
    t.FGI = s.FGI ∨ (t.FGI = false ∧ s.fetched = .ok .inp) ∨ (t.FGI = true ∧ t.EVQ = s.EVQ + 1) := by
  obtain ⟨-, ⟨_, -, rfl⟩ | ⟨i, u, hi, hu, rfl⟩⟩ := step_next_cases h
  case inl => exact .inl rfl
  case inr =>
    have hEVQ : u.EVQ = s.EVQ := (exec_sameDevice hu).EVQ
    rcases u.finishCycle_FGI with hkept | ⟨hset, hcursor⟩
    · rcases (exec_controlFlags hu).FGI with hsame | ⟨rfl, hclear⟩
      · exact .inl (hkept.trans hsame)
      · exact .inr (.inl ⟨hkept.trans hclear, hi⟩)
    · exact .inr (.inr ⟨hset, hEVQ ▸ hcursor⟩)

/-- IEN over a step: ION and RTI set it, IOF and an interrupt entry clear it, nothing else writes it. -/
theorem step_IEN {s t : State} (h : step s = .next t) :
    t.IEN = s.IEN ∨ (t.IEN = true ∧ (s.fetched = .ok .ion ∨ s.fetched = .ok .rti)) ∨
      (t.IEN = false ∧ (s.fetched = .ok .iof ∨ t.AtHandler)) := by
  obtain ⟨-, ⟨_, -, rfl⟩ | ⟨i, u, hi, hu, rfl⟩⟩ := step_next_cases h
  case inl => exact .inl rfl
  case inr =>
    rcases u.finishCycle_IEN with hkept | ⟨hclear, hentry⟩
    · rcases (exec_controlFlags hu).IEN with hsame | ⟨rfl | rfl, hset⟩ | ⟨rfl, hclear⟩
      · exact .inl (hkept.trans hsame)
      · exact .inr (.inl ⟨hkept.trans hset, .inl hi⟩)
      · exact .inr (.inl ⟨hkept.trans hset, .inr hi⟩)
      · exact .inr (.inr ⟨hkept.trans hclear, .inl hi⟩)
    · exact .inr (.inr ⟨hclear, .inr hentry⟩)

/-! FGO is no interrupt source -/

theorem State.deliverInputEvent_withFGO (s : State) (b : Bool) :
    { s with FGO := b }.deliverInputEvent = { s.deliverInputEvent with FGO := b } := by
  simp only [State.deliverInputEvent]
  split
  · split <;> rfl
  · rfl

theorem State.interruptCheck_withFGO (s : State) (b : Bool) :
    { s with FGO := b }.interruptCheck = { s.interruptCheck with FGO := b } := by
  by_cases h : s.IEN = true ∧ s.FGI = true
  · rw [s.interruptCheck_pending h, State.interruptCheck_pending { s with FGO := b } h]
    exact { s with phase := .interruptCheck }.interruptEntry.deliverInputEvent_withFGO b
  · rw [s.interruptCheck_not_pending h, State.interruptCheck_not_pending { s with FGO := b } h]
    exact State.deliverInputEvent_withFGO { s with phase := .interruptCheck } b

/-- Settles O37: a flag that changed over a step was written with its new value, and that value tells the writer. -/
theorem interruptFlagsHaveOnlyTheirWriters : Obligations.InterruptFlagsHaveOnlyTheirWriters := by
  refine ⟨fun s t hstep => ⟨?fgiCleared, ?fgiSet, ?ienSet, ?ienCleared⟩, State.interruptCheck_withFGO⟩
  case fgiCleared | fgiSet =>
    intro hbefore hafter
    simpa [hbefore, hafter] using step_FGI hstep
  case ienSet | ienCleared =>
    intro hbefore hafter
    simpa [hbefore, hafter, State.AtHandler] using step_IEN hstep

/-! The engine that never starts -/

/-- HALTED has no step (R105). -/
theorem step_of_isHalted {s : State} (h : s.isHalted = true) : step s = .fault (.halted s.haltReason) := by
  simp [step, engineStep, h]

/-- Running an engine that has no step changes nothing. -/
theorem runFor_of_isHalted {s : State} (h : s.isHalted = true) (n : Nat) : runFor n s = s := by
  cases n with
  | zero => rfl
  | succ n => simp [runFor, step_of_isHalted h]

/-- The engine is constructed HALTED (R126). -/
theorem State.initial_isHalted (c : Config) : (State.initial c).isHalted = true := rfl

/-- Settles O9: the invalid-image signal leaves the initial state, which is HALTED as NOT_STARTED. -/
theorem invalidImageNeverStarts : Obligations.InvalidImageNeverStarts := by
  refine fun c _ => ⟨rfl, rfl, fun t hstep => ?noStep, runFor_of_isHalted (State.initial_isHalted c) _⟩
  case noStep =>
    have hfault := step_of_isHalted (State.initial_isHalted c)
    cases hfault.symm.trans hstep

end Sys2Proof.Machine
end

section
/-! PROOFS of the family other: the encoding both ways, the machine's words as numbers, memory as data, how a cycle ends, what
it writes and how long it takes, the invariant, and the runs. -/

namespace Sys2Proof.Machine

/-! Encoding: a word and its instruction (30_encoding.md) -/

/-- Every instruction's word has the fields that the tables give it. -/
theorem encode_fields (i : Instr) : Laws.WordFields.Statement i :=
  match i with
  | .and i a => Laws.WordFields.and i a
  | .add i a => Laws.WordFields.add i a
  | .lda i a => Laws.WordFields.lda i a
  | .sta i a => Laws.WordFields.sta i a
  | .bun i a => Laws.WordFields.bun i a
  | .bsa i a => Laws.WordFields.bsa i a
  | .isz i a => Laws.WordFields.isz i a
  | .cla => Laws.WordFields.cla
  | .cle => Laws.WordFields.cle
  | .cma => Laws.WordFields.cma
  | .cme => Laws.WordFields.cme
  | .cir => Laws.WordFields.cir
  | .cil => Laws.WordFields.cil
  | .inc => Laws.WordFields.inc
  | .spa => Laws.WordFields.spa
  | .sna => Laws.WordFields.sna
  | .sza => Laws.WordFields.sza
  | .sze => Laws.WordFields.sze
  | .hlt => Laws.WordFields.hlt
  | .inp => Laws.WordFields.inp
  | .out => Laws.WordFields.out
  | .ski => Laws.WordFields.ski
  | .sko => Laws.WordFields.sko
  | .ion => Laws.WordFields.ion
  | .iof => Laws.WordFields.iof
  | .rti => Laws.WordFields.rti

/-- An instruction's word, put together from its three fields. -/
theorem encode_eq_instrWord (c : Config) (i : Instr) :
    encode c i =
      instrWord (Laws.WordFields.indirectBit i) (Laws.WordFields.opcode i) (Laws.WordFields.address c i) := by
  obtain ⟨hopcode, hindirect, haddress⟩ := encode_fields i c
  rw [← hopcode, ← hindirect, ← haddress, instrWord_fields]

/-- Settles O2: in each family the word's row is the one the decoder finds; RTI's needs an admissible selector. -/
theorem decodeOfEncodeIsTheInstruction : Obligations.DecodeOfEncodeIsTheInstruction := by
  intro c i hwf
  rw [encode_eq_instrWord]
  cases i
  case and | add | lda | sta | bun | bsa | isz => exact decode_memoryReferenceWord c rfl
  case cla | cle | cma | cme | cir | cil | inc | spa | sna | sza | sze | hlt => exact decode_registerReferenceRow c rfl
  case inp | out | ski | sko | ion | iof => exact decode_inputOutputRow rfl
  case rti => exact decode_inputOutputRow (selectorLookup_rtiSelector hwf)

/-- The word of the instruction that R57 gives an opcode. -/
theorem encode_of_memoryReferenceInstr {d : BitVec 3} {indirect : Bool} {addr : Addr} {i : Instr} (c : Config)
    (h : memoryReferenceInstr d indirect addr = some i) : encode c i = instrWord indirect d addr := by
  rcases opcode_cases d with rfl | rfl | rfl | rfl | rfl | rfl | rfl | rfl <;> cases h <;> rfl

theorem encode_of_mem_registerReferenceTable {sel : Addr} {i : Instr} (c : Config)
    (h : (sel, i) ∈ registerReferenceTable) : encode c i = instrWord false 7 sel := by
  have hrows : ∀ row ∈ registerReferenceTable, encode c row.2 = instrWord false 7 row.1 := by
    simp only [registerReferenceTable, List.forall_mem_cons]
    exact ⟨rfl, rfl, rfl, rfl, rfl, rfl, rfl, rfl, rfl, rfl, rfl, rfl, nofun⟩
  exact hrows _ h

theorem encode_of_mem_inputOutputTable {c : Config} {sel : Addr} {i : Instr} (h : (sel, i) ∈ inputOutputTable c) :
    encode c i = instrWord true 7 sel := by
  have hrows : ∀ row ∈ inputOutputTable c, encode c row.2 = instrWord true 7 row.1 := by
    simp only [inputOutputTable, List.forall_mem_cons]
    exact ⟨rfl, rfl, rfl, rfl, rfl, rfl, rfl, nofun⟩
  exact hrows _ h

theorem decodeRegisterReference_eq_ok {sel : Addr} {i : Instr} (h : decodeRegisterReference sel = .ok i) :
    (sel, i) ∈ registerReferenceTable := by
  unfold decodeRegisterReference at h
  split at h
  · next hrow => cases h; exact mem_of_selectorLookup hrow
  · cases h

theorem decodeInputOutput_eq_ok {c : Config} {sel : Addr} {i : Instr} (h : decodeInputOutput c sel = .ok i) :
    (sel, i) ∈ inputOutputTable c := by
  unfold decodeInputOutput at h
  split at h
  · next hrow => cases h; exact mem_of_selectorLookup hrow
  · cases h

theorem memoryReferenceInstr_eq_none_iff {d : BitVec 3} {indirect : Bool} {addr : Addr} :
    memoryReferenceInstr d indirect addr = none ↔ d = 7 := by
  rcases opcode_cases d with rfl | rfl | rfl | rfl | rfl | rfl | rfl | rfl <;> simp [memoryReferenceInstr]

/-- The instruction found for three fields has the word with these fields: by R57, or with D = 7 by the table of the
family that I tells. -/
theorem encode_of_decode_instrWord {c : Config} {indirect : Bool} {d : BitVec 3} {addr : Addr} {i : Instr}
    (h : decode c (instrWord indirect d addr) = .ok i) : encode c i = instrWord indirect d addr := by
  rw [decode_instrWord] at h
  split at h
  · next hrow => cases h; exact encode_of_memoryReferenceInstr c hrow
  · next hnone =>
    obtain rfl := memoryReferenceInstr_eq_none_iff.mp hnone
    cases indirect with
    | false => exact encode_of_mem_registerReferenceTable c (decodeRegisterReference_eq_ok h)
    | true => exact encode_of_mem_inputOutputTable (decodeInputOutput_eq_ok h)

/-- Settles O3: a word is its three fields, and the row that the decoder finds for them has this word. -/
theorem encodeOfDecodeIsTheWord : Obligations.EncodeOfDecodeIsTheWord := by
  intro c w i h
  rw [← instrWord_fields w] at h ⊢
  exact encode_of_decode_instrWord h

theorem decodeRegisterReference_error_iff {sel : Addr} :
    (∃ r, decodeRegisterReference sel = .error r) ↔ sel ∉ registerReferenceTable.map Prod.fst := by
  rw [← selectorLookup_eq_none]
  cases h : selectorLookup registerReferenceTable sel <;> simp [decodeRegisterReference, h]

theorem decodeInputOutput_error_iff {c : Config} {sel : Addr} :
    (∃ r, decodeInputOutput c sel = .error r) ↔ sel ∉ (inputOutputTable c).map Prod.fst := by
  rw [← selectorLookup_eq_none]
  cases h : selectorLookup (inputOutputTable c) sel <;> simp [decodeInputOutput, h]

theorem decode_error_iff {c : Config} {w : Word} :
    (∃ r, decode c w = .error r) ↔
      opcodeField w = 7 ∧
        ((indirectField w = false ∧ ∃ r, decodeRegisterReference (addressField w) = .error r) ∨
         (indirectField w = true ∧ ∃ r, decodeInputOutput c (addressField w) = .error r)) := by
  rw [← memoryReferenceInstr_eq_none_iff (indirect := indirectField w) (addr := addressField w)]
  unfold decode
  cases memoryReferenceInstr (opcodeField w) (indirectField w) (addressField w) with
  | some i => simp
  | none => cases indirectField w <;> simp

theorem not_mem_registerReferenceTable_selectors_iff (sel : Addr) :
    sel ∉ registerReferenceTable.map Prod.fst ↔ (List.finRange 12).countP (fun k => sel[k]) ≠ 1 :=
  not_congr ((mem_registerReferenceTable_selectors_iff sel).trans (countP_getElem_eq_one_iff sel).symm)

/-- Settles O5: only a D = 7 word can be rejected, and then exactly when its family's table has no row for its
selector. -/
theorem illegalWordsAreExactlyTheBadSelectors : Obligations.IllegalWordsAreExactlyTheBadSelectors := by
  intro c w
  rw [decode_error_iff, decodeRegisterReference_error_iff, decodeInputOutput_error_iff,
    not_mem_registerReferenceTable_selectors_iff]
  rfl

/-- Settles O1: six rows of the tables, a selector that no row has, and the selector 0, which RTI's row alone can
have. -/
theorem sampleWordsDecodeAsTheTablesSay : Obligations.SampleWordsDecodeAsTheTablesSay := by
  refine fun c => ⟨rfl, rfl, rfl, rfl, rfl, rfl, rfl, ?selectorZero⟩
  case selectorZero =>
    calc decode c (instrWord true 7 0x000)
        = decodeInputOutput c 0x000 := (decode_instrWord c true 7 0x000).trans rfl
      _ = if c.rtiSelector = 0 then .ok .rti else .error (.inputOutputSelector 0x000) := by
        by_cases h : c.rtiSelector = 0#12 <;> simp [decodeInputOutput, inputOutputTable, selectorLookup, h]

/-! Widening and narrowing -/

/-- The part of a word that is used as an address is the word modulo 4096 (R22). -/
theorem toNat_addressField (w : Word) : (addressField w).toNat = w.toNat % 4096 := by
  simp [addressField]

theorem toNat_widenPC_sext {c : Config} (h : c.pcWiden = .sext) (p : Addr) :
    (widenPC c p).toNat = if 0x800 ≤ p.toNat then 0xF000 + p.toNat else p.toNat := by
  have hp : p.toNat < 4096 := p.isLt
  simp only [widenPC_eq, h, if_true, BitVec.toNat_signExtend, BitVec.toNat_setWidth, BitVec.msb_eq_decide,
    decide_eq_true_eq]
  split <;> omega

theorem toNat_widenPC_zext {c : Config} (h : c.pcWiden = .zext) (p : Addr) : (widenPC c p).toNat = p.toNat := by
  have hp : p.toNat < 4096 := p.isLt
  simp only [widenPC, h, BitVec.toNat_setWidth]
  omega

/-- Under both settings a return through the stored word finds the address again. -/
@[simp] theorem addressField_widenPC (c : Config) (p : Addr) : addressField (widenPC c p) = p := by
  have hp : p.toNat < 4096 := p.isLt
  apply BitVec.eq_of_toNat_eq
  rw [toNat_addressField]
  cases h : c.pcWiden with
  | sext => rw [toNat_widenPC_sext h]; split <;> omega
  | zext => rw [toNat_widenPC_zext h]; omega

/-- Settles O34: sign extension and zero extension as numbers, and the low 12 bits as the number modulo 4096. -/
theorem widenedPcKeepsItsLowTwelveBits : Obligations.WidenedPcKeepsItsLowTwelveBits :=
  fun c p => ⟨fun h => toNat_widenPC_sext h p, fun h => toNat_widenPC_zext h p, addressField_widenPC c p⟩

/-! The rotations undo each other -/

theorem rotateLeftAc_rotateRightAc (ac : Word) (e : Bool) :
    rotateLeftAc (rotateRightAc ac e) (rotateRightE ac) = ac := by
  refine BitVec.eq_of_getElem_eq fun k hk => ?_
  simp only [rotateLeftAc, rotateRightAc, rotateRightE]
  cases k with
  | zero => simp
  | succ k =>
    have hlow : k < 15 := Nat.lt_of_succ_lt_succ hk
    simp [hlow, Nat.add_comm 1, BitVec.getLsbD_eq_getElem hk]

theorem rotateRightAc_rotateLeftAc (ac : Word) (e : Bool) :
    rotateRightAc (rotateLeftAc ac e) (rotateLeftE ac) = ac := by
  refine BitVec.eq_of_getElem_eq fun k hk => ?_
  simp only [rotateLeftAc, rotateRightAc, rotateLeftE]
  rcases Nat.lt_or_eq_of_le (Nat.le_of_lt_succ hk) with hlow | rfl
  case inl =>
    have hsucc : 1 + k < 16 := by omega
    simp [hlow, hsucc, BitVec.getLsbD_eq_getElem]
  case inr => simp

theorem rotateLeftE_rotateRightAc (ac : Word) (e : Bool) : rotateLeftE (rotateRightAc ac e) = e := by
  simp [rotateLeftE, rotateRightAc]

theorem rotateRightE_rotateLeftAc (ac : Word) (e : Bool) : rotateRightE (rotateLeftAc ac e) = e := by
  simp [rotateRightE, rotateLeftAc]

/-! Single instructions -/

theorem exec_cir (s : State) :
    exec .cir s = .next { s with AC := rotateRightAc s.AC s.E, E := rotateRightE s.AC, CYC := s.CYC + 1 } := rfl

theorem exec_cil (s : State) :
    exec .cil s = .next { s with AC := rotateLeftAc s.AC s.E, E := rotateLeftE s.AC, CYC := s.CYC + 1 } := rfl

theorem exec_hlt (s : State) :
    exec .hlt s = .next { s with S := false, phase := .halted, haltReason := .hltExecuted,
                                 CYC := s.CYC + s.config.hltTicks } := rfl

theorem exec_rti (s : State) :
    exec .rti s = .next { s with AR := 0, PC := addressField (s.mem.read 0), IEN := true, CYC := s.CYC + 1 } := rfl

/-- Settles O24: the rotations are inverse on AC, and each gives back the E that the other took in. -/
theorem cilAndCirUndoEachOther : Obligations.CilAndCirUndoEachOther := by
  refine fun s => ⟨exec_cir s, fun t ht => ?cilAfterCir, fun t ht => ?cirAfterCil⟩
  case cilAfterCir =>
    cases (exec_cir s).symm.trans ht
    rw [exec_cil, rotateLeftAc_rotateRightAc, rotateLeftE_rotateRightAc]
  case cirAfterCil =>
    cases (exec_cil s).symm.trans ht
    rw [exec_cir, rotateRightAc_rotateLeftAc, rotateRightE_rotateLeftAc]

/-- Settles O26: the sign bit is the sign of the value that AC reads as. -/
theorem snaSkipsOnNegativeAccumulator : Obligations.SnaSkipsOnNegativeAccumulator := by
  refine fun s => ⟨decode_registerReferenceRow (sel := 0x008) s.config rfl, ?effect⟩
  case effect =>
    have htest : signBit s.AC = true ↔ s.AC.toInt < 0 := by rw [signBit_eq_decide, decide_eq_true_iff]
    exact congrArg (fun t : State => Host.Outcome.next (t.tick 1)) (s.skipIf_eq_of_iff htest)

/-- Settles O27: SZA's test, and its ticks as the parameter. -/
theorem szaSkipsOnZeroAccumulator : Obligations.SzaSkipsOnZeroAccumulator := by
  refine fun s => ⟨decode_registerReferenceRow (sel := 0x004) s.config rfl, ?effect⟩
  case effect =>
    have htest : isZero s.AC = true ↔ s.AC = 0 := beq_iff_eq
    exact congrArg (fun t : State => Host.Outcome.next (t.tick s.config.szaTicks)) (s.skipIf_eq_of_iff htest)

/-- Settles O28: HLT's row of R59, and the state it answers. -/
theorem hltClearsRunFlag : Obligations.HltClearsRunFlag :=
  fun s => ⟨decode_registerReferenceRow (sel := 0x001) s.config rfl, exec_hlt s⟩

/-- Settles O12: the direct form is the field; the indirect one narrows the pointer word. -/
theorem effectiveAddressDirectAndIndirect : Obligations.EffectiveAddressDirectAndIndirect :=
  fun s addr => ⟨rfl, toNat_addressField (s.mem.read addr)⟩

/-- Settles O54: the BUN reads back the word that the BSA wrote, the widened PC. -/
theorem indirectBunReturnsFromBsa : Obligations.IndirectBunReturnsFromBsa := by
  refine fun s addr => ⟨_, _, exec_bsa s false addr, rfl, rfl, ?returns, rfl, rfl⟩
  case returns =>
    calc addressField ((s.mem.write addr (widenPC s.config s.PC)).read addr)
        = addressField (widenPC s.config s.PC) := by rw [Memory.read_write_same]
      _ = s.PC := addressField_widenPC _ _

/-- Settles O55: RTI reads back the word that the entry wrote, the widened PC. -/
theorem rtiUndoesInterruptEntry : Obligations.RtiUndoesInterruptEntry := by
  intro s
  have hreturn : addressField (s.interruptEntry.mem.read 0) = s.PC := by
    rw [s.interruptEntry_eq, Memory.read_write_same, addressField_widenPC]
  rw [exec_rti, hreturn]
  rfl

/-- Settles O58: each narrowing write as a number modulo the register's size, each increment as an addition on its
width. -/
theorem registerWriteTruncates : Obligations.RegisterWriteTruncates := by
  refine fun s indirect addr =>
    ⟨toNat_addressField _, toNat_addressField _, ⟨_, rfl, toNat_addressField _⟩, ⟨_, rfl, ?out⟩,
     ⟨_, exec_add s indirect addr, ?add⟩, BitVec.toNat_add _ _, ⟨_, rfl, ?skip⟩,
     ⟨_, exec_bsa s indirect addr, BitVec.toNat_add _ _⟩, ⟨_, rfl, BitVec.toNat_add _ _⟩,
     ⟨_, exec_isz s indirect addr, BitVec.toNat_add _ _⟩, ?widen⟩
  case out => simp [lowByte]
  case add => simp only [addResult_eq_add, BitVec.toNat_add]
  case skip =>
    have hlt : s.PC.toNat < 4096 := s.PC.isLt
    cases hready : s.FGI with
    | false => simp [Nat.mod_eq_of_lt hlt]
    | true => simp
  case widen =>
    intro h
    rw [s.interruptEntry_eq]
    simp only [widenPC, h]
    exact Register.toNat_set 16 _

/-! Canonical memory as its words -/

theorem Memory.mem_of_lookup_ne {m : Memory} {a : Nat} (h : Memory.lookup m a ≠ memFill) :
    (a, Memory.lookup m a) ∈ m := by
  induction m with
  | nil => exact absurd rfl h
  | cons cell rest ih =>
    simp only [Memory.lookup] at h ⊢
    split
    · next ha => subst ha; exact List.mem_cons_self
    · next ha =>
      rw [if_neg ha] at h
      exact List.mem_cons_of_mem _ (ih h)

theorem Memory.lookup_of_mem {m : Memory} (rising : (m.map Prod.fst).Pairwise (· < ·)) {cell : Cell} (h : cell ∈ m) :
    Memory.lookup m cell.1 = cell.2 := by
  induction m with
  | nil => cases h
  | cons head rest ih =>
    rw [List.map_cons, List.pairwise_cons] at rising
    obtain ⟨first, rest_rising⟩ := rising
    rcases List.mem_cons.mp h with rfl | hrest
    · simp [Memory.lookup]
    · have hlt : head.1 < cell.1 := first _ (List.mem_map_of_mem hrest)
      rw [Memory.lookup, if_neg hlt.ne, ih rest_rising hrest]

/-- A canonical memory lists exactly the words that are not the fill. -/
theorem Memory.mem_iff_read {m : Memory} (h : m.wf) {cell : Cell} :
    cell ∈ m ↔ cell.2 ≠ memFill ∧ ∃ a : Addr, cell.1 = a.toNat ∧ m.read a = cell.2 := by
  obtain ⟨rising, cells⟩ := h
  constructor
  case mp =>
    intro hmem
    obtain ⟨hlt, hne⟩ := cells cell hmem
    have haddr : cell.1 = (BitVec.ofNatLT cell.1 hlt : Addr).toNat := rfl
    exact ⟨hne, BitVec.ofNatLT cell.1 hlt, haddr, Memory.lookup_of_mem rising hmem⟩
  case mpr =>
    rintro ⟨hne, a, haddr, hread⟩
    have hcell : cell = (a.toNat, m.read a) := Prod.ext haddr hread.symm
    rw [hcell]
    exact Memory.mem_of_lookup_ne fun hfill => hne (hread.symm.trans hfill)

/-- Settles O53: a canonical memory lists exactly the words that are not the fill, in the one order its form allows. -/
theorem canonicalMemoriesThatReadAlikeAreEqual : Obligations.CanonicalMemoriesThatReadAlikeAreEqual := by
  intro m n hm hn hread
  have hmem : ∀ cell, cell ∈ m ↔ cell ∈ n := fun cell => by
    simp only [Memory.mem_iff_read hm, Memory.mem_iff_read hn, hread]
  have asymm : Std.Asymm fun x y : Cell => x.1 < y.1 := ⟨fun _ _ => Nat.lt_asymm⟩
  exact (List.pairwise_map.mp hm.1).eq_of_mem_iff (List.pairwise_map.mp hn.1) hmem

/-! Load -/

theorem State.loadImage_append (first second : List (Addr × Word)) (s : State) :
    s.loadImage (first ++ second) = (s.loadImage first).loadImage second := by
  induction first generalizing s with
  | nil => rfl
  | cons entry rest ih => exact ih (s.loadWord entry.1 entry.2)

/-- Settles O7: the pair at the end is the load's last write. -/
theorem laterImageEntryWins : Obligations.LaterImageEntryWins := by
  intro c image p a b v
  have hload : (State.construct c (image ++ [(a, v)]) (some p)).mem =
      (State.construct c image (some p)).mem.write a v :=
    congrArg State.mem ((State.initial c).loadImage_append image [(a, v)])
  rw [hload, Memory.read_write]

/-- The load writes memory and the used set only. -/
theorem State.loadImage_frame (image : List (Addr × Word)) (s : State) :
    s.loadImage image = { s with mem := (s.loadImage image).mem, used := (s.loadImage image).used } := by
  induction image generalizing s with
  | nil => rfl
  | cons entry rest ih => exact ih (s.loadWord entry.1 entry.2)

/-- Settles O8: the load writes memory and the used set of the initial state, and the start the rest. -/
theorem constructionStartsARunAtStartPc : Obligations.ConstructionStartsARunAtStartPc := by
  refine ⟨fun c image p => ?state, rfl⟩
  case state => exact congrArg (State.started p) ((State.initial c).loadImage_frame image)

/-! How a cycle ends -/

theorem exec_completes (i : Instr) (s : State) : ∃ u, exec i s = .next u := by
  cases i <;> exact ⟨_, rfl⟩

/-- Settles O11: EXECUTE always completes, so the step is `exec` and what follows it. -/
theorem stepRunsTheDecodedInstruction : Obligations.StepRunsTheDecodedInstruction := by
  refine fun s i hb hi => ⟨s.fetch_decodePhase_eq, ?step⟩
  case step =>
    obtain ⟨u, hu⟩ := exec_completes i s.fetch.decodePhase
    rw [step_of_exec_next hb hi hu, hu]
    rfl

theorem step_of_fetched_ok {s t : State} {i : Instr} (hi : s.fetched = .ok i) (h : step s = .next t) :
    ∃ u, exec i s.fetch.decodePhase = .next u ∧ t = u.finishCycle := by
  obtain ⟨-, ⟨r, hr, -⟩ | ⟨j, u, hj, hu, ht⟩⟩ := step_next_cases h
  · cases hi.symm.trans hr
  · cases hi.symm.trans hj
    exact ⟨u, hu, ht⟩

theorem step_of_fetched_error {s t : State} {r : Reject} (hr : s.fetched = .error r) (h : step s = .next t) :
    t = s.fetch.decodePhase.halt .decodeFailure := by
  obtain ⟨-, ⟨_, -, ht⟩ | ⟨i, _, hi, -⟩⟩ := step_next_cases h
  · exact ht
  · cases hr.symm.trans hi

/-- Settles O41: the fields of 0x7001, and HLT, after which nothing follows. -/
theorem hltCycleEndsTheRunAtOnce : Obligations.HltCycleEndsTheRunAtOnce := by
  intro s hb hword
  have hd : decode s.config (s.mem.read s.PC) = .ok .hlt := hword ▸ decode_memFill s.config
  obtain ⟨hD, hI, hAR⟩ : opcodeField 0x7001 = 7 ∧ indirectField 0x7001 = false ∧ addressField 0x7001 = 0x001 :=
    Laws.WordFields.hlt s.config
  rw [step_of_exec_next hb hd (exec_hlt _), State.finishCycle_of_stopped rfl, s.fetch_decodePhase_eq, hword, hD, hI,
    hAR]

/-- Settles O42: the halted state after DECODE, with D = 7 since no other opcode is rejected. -/
theorem illegalWordEndsTheRun : Obligations.IllegalWordEndsTheRun := by
  intro s r hb hr
  obtain ⟨hD, -⟩ := decode_error_iff.mp ⟨r, hr⟩
  rw [step_of_decode_error hb hr, s.fetch_decodePhase_eq, hD]
  rfl

theorem State.isHalted_iff (s : State) : s.isHalted = true ↔ s.phase = .halted ∨ s.S = false := by
  simp [State.isHalted]

/-- Settles O43: a state with phase HALTED or S = 0 is what `isHalted` tests, and a step begins with S = 1. -/
theorem haltedEngineTakesNoStep : Obligations.HaltedEngineTakesNoStep := by
  refine ⟨fun s hend => step_of_isHalted (s.isHalted_iff.mpr hend), fun s t hstep => ?running,
    fun s n hend => runFor_of_isHalted (s.isHalted_iff.mpr hend) n⟩
  case running =>
    obtain ⟨⟨-, hS, -⟩, -⟩ := step_next_cases hstep
    exact hS

/-- INTERRUPT_CHECK is one delivery attempt, after an entry or not, from a state `v` with the device, FGI, S and
HALT_REASON of `u`. -/
theorem State.interruptCheck_eq_deliverInputEvent (u : State) :
    ∃ v, u.interruptCheck = v.deliverInputEvent ∧ u.SameDevice v ∧ v.FGI = u.FGI ∧ v.S = u.S ∧
      v.haltReason = u.haltReason := by
  by_cases h : u.IEN = true ∧ u.FGI = true
  · exact ⟨_, u.interruptCheck_pending h, ⟨rfl, rfl, rfl⟩, rfl, rfl, rfl⟩
  · exact ⟨_, u.interruptCheck_not_pending h, ⟨rfl, rfl, rfl⟩, rfl, rfl, rfl⟩

@[simp] theorem State.deliverInputEvent_S (s : State) : s.deliverInputEvent.S = s.S := by
  rw [s.deliverInputEvent_frame]

@[simp] theorem State.deliverInputEvent_haltReason (s : State) : s.deliverInputEvent.haltReason = s.haltReason := by
  rw [s.deliverInputEvent_frame]

@[simp] theorem State.deliverInputEvent_CYC (s : State) : s.deliverInputEvent.CYC = s.CYC := by
  rw [s.deliverInputEvent_frame]

theorem State.runawayCheck_frame (s : State) :
    s.runawayCheck = { s with S := s.runawayCheck.S, phase := s.runawayCheck.phase,
                              haltReason := s.runawayCheck.haltReason } := by
  rcases s.runawayCheck_cases with ⟨-, h⟩ | ⟨-, h⟩ <;> rw [h]

@[simp] theorem State.runawayCheck_CYC (s : State) : s.runawayCheck.CYC = s.CYC := by rw [s.runawayCheck_frame]
@[simp] theorem State.runawayCheck_INPR (s : State) : s.runawayCheck.INPR = s.INPR := by rw [s.runawayCheck_frame]
@[simp] theorem State.runawayCheck_FGI (s : State) : s.runawayCheck.FGI = s.FGI := by rw [s.runawayCheck_frame]
@[simp] theorem State.runawayCheck_EVQ (s : State) : s.runawayCheck.EVQ = s.EVQ := by rw [s.runawayCheck_frame]

/-- Settles O39: the cycle ends with one delivery attempt, which the guard leaves; the attempt's two cases are the
statement's. -/
theorem inputEventDeliveredWhenReachedAndFree : Obligations.InputEventDeliveredWhenReachedAndFree := by
  intro s t u i hb hi hu hS hstep
  have hsu : s.SameDevice u := s.fetch_decodePhase_sameDevice.trans (exec_sameDevice hu)
  obtain ⟨v, hcheck, huv, hFGI, -, -⟩ := u.interruptCheck_eq_deliverInputEvent
  obtain ⟨hconfig, hEVQ, hINPR⟩ := hsu.trans huv
  have ht : t = v.deliverInputEvent.runawayCheck := by
    cases (step_of_exec_next hb hi hu).symm.trans hstep
    rw [State.finishCycle_of_running hS, hcheck]
  have hCYC : t.CYC = v.CYC := by simp [ht]
  rw [← hconfig, ← hEVQ, ← hINPR, ← hFGI, hCYC]
  rcases v.deliverInputEvent_cases with ⟨event, hat, hreached, hfree, hdeliver⟩ | ⟨hnone, hdeliver⟩
  case inl =>
    refine ⟨fun event' hat' _ _ => ?_, fun hblocked => ?_⟩
    · cases hat.symm.trans hat'
      simp [ht, hdeliver]
    · rcases hblocked event hat with hearly | hfull
      · exact absurd hreached (Nat.not_le.mpr hearly)
      · cases hfree.symm.trans hfull
  case inr =>
    refine ⟨fun event hat hreached hfree => absurd ⟨hreached, hfree⟩ (hnone event hat), fun _ => ?_⟩
    simp [ht, hdeliver]

/-- The run has ended, and why (R100). -/
structure State.EndedBy (reason : HaltReason) (t : State) : Prop where
  S : t.S = false
  phase : t.phase = .halted
  haltReason : t.haltReason = reason

/-- The four ways in which a cycle from `s` can end at `t` (R66, R100 to R103). -/
inductive State.CycleEnds (s t : State) : Prop where
  | decodeFailure (r : Reject) (fetched : s.fetched = .error r) (ended : t.EndedBy .decodeFailure)
  | hlt (fetched : s.fetched = .ok .hlt) (ended : t.EndedBy .hltExecuted)
  | runaway (i : Instr) (fetched : s.fetched = .ok i) (notHlt : i ≠ .hlt) (ceiling : 600 ≤ t.CYC)
      (ended : t.EndedBy .runaway)
  | goesOn (i : Instr) (fetched : s.fetched = .ok i) (notHlt : i ≠ .hlt) (below : t.CYC < 600)
      (S : t.S = true) (phase : t.phase = .fetch) (haltReason : t.haltReason = s.haltReason)

/-- HLT is the one instruction that writes HALT_REASON (R91). -/
theorem exec_haltReason {i : Instr} {s u : State} (h : exec i s = .next u) (hi : i ≠ .hlt) :
    u.haltReason = s.haltReason := by
  cases i
  case hlt => exact absurd rfl hi
  case and indirect _ | add indirect _ | lda indirect _ | sta indirect _ | bun indirect _ | bsa indirect _
      | isz indirect _ =>
    cases h
    cases indirect <;> rfl
  all_goals
    cases h
    rfl

/-- The guard ends the run at the ceiling, and below it leaves S and HALT_REASON for the next FETCH. -/
theorem State.runawayCheck_ends (s : State) :
    (600 ≤ s.CYC ∧ s.runawayCheck.EndedBy .runaway) ∨
    (s.CYC < 600 ∧ s.runawayCheck.S = s.S ∧ s.runawayCheck.phase = .fetch ∧
      s.runawayCheck.haltReason = s.haltReason) := by
  rcases s.runawayCheck_cases with ⟨hCYC, h⟩ | ⟨hCYC, h⟩
  · exact .inl ⟨hCYC, by rw [h]; exact ⟨rfl, rfl, rfl⟩⟩
  · exact .inr ⟨hCYC, by rw [h]; exact ⟨rfl, rfl, rfl⟩⟩

theorem step_cycleEnds {s t : State} (h : step s = .next t) : s.CycleEnds t := by
  obtain ⟨⟨-, hS, -⟩, ⟨r, hr, rfl⟩ | ⟨i, u, hi, hu, rfl⟩⟩ := step_next_cases h
  case inl => exact .decodeFailure r hr ⟨rfl, rfl, rfl⟩
  case inr =>
    by_cases hhlt : i = .hlt
    · subst hhlt
      cases hu
      exact .hlt hi ⟨rfl, rfl, rfl⟩
    · have huS : u.S = true := by
        rcases (exec_controlFlags hu).S with ⟨heq, -⟩ | ⟨-, huS⟩
        · exact absurd heq hhlt
        · exact huS.trans hS
      have hreason : u.haltReason = s.haltReason := (exec_haltReason hu hhlt :)
      obtain ⟨v, hcheck, -, -, hvS, hvreason⟩ := u.interruptCheck_eq_deliverInputEvent
      rw [State.finishCycle_of_running huS, hcheck]
      rcases v.deliverInputEvent.runawayCheck_ends with ⟨hCYC, hended⟩ | ⟨hCYC, hS', hphase, hreason'⟩
      · exact .runaway i hi hhlt (by simpa using hCYC) hended
      · exact .goesOn i hi hhlt (by simpa using hCYC) (hS'.trans (by simp [hvS, huS])) hphase
          (hreason'.trans (by simp [hvreason, hreason]))

/-- Settles O40: each of a cycle's four ends gives S, the phase and HALT_REASON; an instruction other than HLT has two of
them, told apart by CYC. -/
theorem runawayGuardStopsAtTheCeiling : Obligations.RunawayGuardStopsAtTheCeiling := by
  refine ⟨fun s t hrun _ hstep => ?running, fun s t i _ hi hne hstep => ?boundary⟩
  case running =>
    obtain ⟨-, -, hreason, -⟩ := hrun
    cases step_cycleEnds hstep with
    | decodeFailure r hr hended => simp [hended.S, hended.phase, hended.haltReason, hr]
    | hlt hi hended => simp [hended.S, hended.phase, hended.haltReason, hi]
    | runaway i hi hne hCYC hended => simp [hended.S, hended.phase, hended.haltReason, hi, hne, hCYC]
    | goesOn i hi hne hCYC hS hphase hkept => simp [hS, hphase, hkept, hreason, Nat.not_le.mpr hCYC]
  case boundary =>
    cases step_cycleEnds hstep with
    | decodeFailure r hr _ => cases hi.symm.trans hr
    | hlt hi' _ => cases hi.symm.trans hi'; exact absurd rfl hne
    | runaway _ _ _ hCYC hended =>
      exact ⟨fun _ => ⟨hended.S, hended.phase, hended.haltReason⟩, fun hlt => absurd hCYC (Nat.not_le.mpr hlt)⟩
    | goesOn _ _ _ hCYC hS hphase hkept =>
      exact ⟨fun hge => absurd hge (Nat.not_le.mpr hCYC), fun _ => ⟨hS, hphase, hkept⟩⟩

/-! What an instruction writes -/

theorem replaceLowByte_high (v : Word) (b : Byte) : (replaceLowByte v b).extractLsb 15 8 = v.extractLsb 15 8 := by
  refine BitVec.eq_of_getLsbD_eq fun k hk => ?_
  simp only [replaceLowByte, BitVec.getLsbD_extractLsb, BitVec.getLsbD_append]
  simp

/-- What EXECUTE of `i` from `s` to `u` does to the data registers, E and FGO (R24 to R27): each has its own instructions
that write it, but TR and IR, which EXECUTE leaves. -/
structure State.RegistersWrittenBy (i : Instr) (s u : State) : Prop where
  AC : u.AC = s.AC ∨ i ∈ [.cla, .cma, .cir, .cil, .inc, .inp] ∨ ∃ m a, i ∈ [.and m a, .add m a, .lda m a]
  ACHigh : i = .inp → u.AC.extractLsb 15 8 = s.AC.extractLsb 15 8
  DR : u.DR = s.DR ∨ ∃ m a, i ∈ [.and m a, .add m a, .lda m a, .isz m a]
  OUTR : u.OUTR = s.OUTR ∨ i = .out
  FGO : u.FGO = s.FGO ∨ (i = .out ∧ u.FGO = false)
  E : u.E = s.E ∨ i ∈ [.cle, .cme, .cir, .cil] ∨ ∃ m a, i = .add m a
  TR : u.TR = s.TR
  IR : u.IR = s.IR

theorem exec_registersWrittenBy {i : Instr} {s u : State} (h : exec i s = .next u) : s.RegistersWrittenBy i u := by
  cases i
  case and | add | lda | sta | bun | bsa | isz =>
    cases h
    constructor <;> simp [State.addressOperand_eq]
  all_goals
    cases h
    constructor <;> simp [replaceLowByte_high, State.interruptReturn_eq]

/-- `t` has the data registers, E, FGO, IR and the parameters as `s` has them. -/
structure State.SameRegisters (s t : State) : Prop where
  AC : t.AC = s.AC
  DR : t.DR = s.DR
  OUTR : t.OUTR = s.OUTR
  FGO : t.FGO = s.FGO
  E : t.E = s.E
  IR : t.IR = s.IR
  config : t.config = s.config

theorem State.DeliveredAndGuarded.sameRegisters {s t : State} (h : s.DeliveredAndGuarded t) : s.SameRegisters t := by
  rw [h.frame]
  exact ⟨rfl, rfl, rfl, rfl, rfl, rfl, rfl⟩

theorem State.finishCycle_sameRegisters (u : State) : u.SameRegisters u.finishCycle := by
  rcases u.finishCycle_deliveredAndGuarded with h | h
  · exact h.sameRegisters
  · obtain ⟨hAC, hDR, hOUTR, hFGO, hE, hIR, hconfig⟩ := h.sameRegisters
    exact ⟨hAC, hDR, hOUTR, hFGO, hE, hIR, hconfig⟩

theorem State.DeliveredAndGuarded.TR {s t : State} (h : s.DeliveredAndGuarded t) : t.TR = s.TR :=
  (congrArg State.TR h.frame :)

theorem State.DeliveredAndGuarded.PC {s t : State} (h : s.DeliveredAndGuarded t) : t.PC = s.PC :=
  (congrArg State.PC h.frame :)

/-- After EXECUTE only an interrupt entry writes TR. -/
theorem State.finishCycle_TR (u : State) :
    u.finishCycle.TR = u.TR ∨ (u.finishCycle.IEN = false ∧ u.finishCycle.AtHandler) :=
  u.finishCycle_deliveredAndGuarded.imp State.DeliveredAndGuarded.TR State.DeliveredAndGuarded.atHandler

/-- Settles O44: the writers in EXECUTE, and after it an interrupt entry, which writes TR only. -/
theorem registersChangeOnlyByTheirWriters : Obligations.RegistersChangeOnlyByTheirWriters := by
  intro s t i hi hstep
  obtain ⟨u, hu, rfl⟩ := step_of_fetched_ok hi hstep
  have hw : s.fetch.decodePhase.RegistersWrittenBy i u := exec_registersWrittenBy hu
  have hconfig : u.config = s.config := (exec_sameDevice hu).config
  have hend := u.finishCycle_sameRegisters
  rw [hend.AC, hend.DR, hend.OUTR, hend.FGO, hend.IR, hend.config]
  refine ⟨hw.AC, hw.ACHigh, hw.DR, hw.OUTR, hw.FGO, ?TR, hw.IR, hconfig⟩
  case TR =>
    rcases u.finishCycle_TR with hkept | ⟨hIEN, hPC, hAR, -⟩
    · exact .inl (hkept.trans hw.TR)
    · exact .inr ⟨hPC, hAR, hIEN⟩

/-- Settles O45: EXECUTE is the one phase that writes E. -/
theorem carryChangesOnlyByItsFiveWriters : Obligations.CarryChangesOnlyByItsFiveWriters := by
  intro s t hstep
  obtain ⟨-, ⟨_, -, rfl⟩ | ⟨i, u, hi, hu, rfl⟩⟩ := step_next_cases hstep
  case inl => exact .inl rfl
  case inr =>
    have hw : s.fetch.decodePhase.RegistersWrittenBy i u := exec_registersWrittenBy hu
    rw [u.finishCycle_sameRegisters.E]
    exact hw.E.imp_right fun hwriter => ⟨i, hi, hwriter⟩

/-! What an instruction stores -/

/-- EXECUTE of `i` from `s` to `u` leaves memory and the used set, or writes one word, at the effective address of STA,
BSA or ISZ. -/
inductive State.StoredBy (i : Instr) (s u : State) : Prop where
  | nothing (mem : u.mem = s.mem) (used : u.used = s.used)
  | word (m : Bool) (x : Addr) (v : Word) (instr : i = .sta m x ∨ i = .bsa m x ∨ i = .isz m x)
      (mem : u.mem = s.mem.write (s.effectiveAddress m x) v)
      (used : u.used = s.used.mark (s.effectiveAddress m x).toNat)

theorem exec_storedBy {i : Instr} {s u : State} (h : exec i s = .next u) : s.StoredBy i u := by
  cases i
  case sta m x =>
    cases (exec_sta s m x).symm.trans h
    exact .word m x _ (.inl rfl) rfl rfl
  case bsa m x =>
    cases (exec_bsa s m x).symm.trans h
    exact .word m x _ (.inr (.inl rfl)) rfl rfl
  case isz m x =>
    cases (exec_isz s m x).symm.trans h
    exact .word m x _ (.inr (.inr rfl)) rfl rfl
  case and | add | lda | bun =>
    cases h
    exact .nothing (by simp [State.addressOperand_eq]) (by simp [State.addressOperand_eq])
  all_goals
    cases h
    exact .nothing rfl rfl

theorem State.StoredBy.address_of_read_ne {i : Instr} {s u : State} {a : Addr} (h : s.StoredBy i u)
    (hchanged : u.mem.read a ≠ s.mem.read a) :
    ∃ m x, (i = .sta m x ∨ i = .bsa m x ∨ i = .isz m x) ∧ a = s.effectiveAddress m x := by
  cases h with
  | nothing hmem _ => exact absurd (by rw [hmem]) hchanged
  | word m x v hinstr hmem _ =>
    refine ⟨m, x, hinstr, by_contra fun hother => hchanged ?_⟩
    rw [hmem, s.mem.read_write_other v hother]

theorem State.DeliveredAndGuarded.memory {s t : State} (h : s.DeliveredAndGuarded t) :
    t.mem = s.mem ∧ t.used = s.used := by
  rw [h.frame]
  exact ⟨rfl, rfl⟩

/-- After EXECUTE only an interrupt entry writes memory, and only address 0. -/
theorem State.finishCycle_read (u : State) (a : Addr) :
    u.finishCycle.mem.read a = u.mem.read a ∨ (a = 0x000 ∧ u.finishCycle.IEN = false ∧ u.finishCycle.AtHandler) := by
  rcases u.finishCycle_deliveredAndGuarded with h | h
  · exact .inl (by rw [h.memory.1])
  · by_cases ha : a = 0x000
    · exact .inr ⟨ha, h.atHandler⟩
    · exact .inl (by rw [h.memory.1]; exact u.mem.read_write_other _ ha)

/-- Settles O46: the word is written in EXECUTE, or by an interrupt entry, which writes address 0. -/
theorem stepStoresOnlyAtItsTargets : Obligations.StepStoresOnlyAtItsTargets := by
  intro s t a hstep hchanged
  obtain ⟨-, ⟨_, -, rfl⟩ | ⟨i, u, hi, hu, rfl⟩⟩ := step_next_cases hstep
  case inl => exact absurd rfl hchanged
  case inr =>
    rcases u.finishCycle_read a with hkept | ⟨ha, hIEN, hPC, -, hsaved⟩
    · obtain ⟨m, x, hinstr, ha⟩ := (exec_storedBy hu).address_of_read_ne (hkept ▸ hchanged)
      refine .inl ⟨m, x, ?_, ha⟩
      rcases hinstr with rfl | rfl | rfl
      · exact .inl hi
      · exact .inr (.inl hi)
      · exact .inr (.inr hi)
    · exact .inr ⟨ha, hPC, hIEN, hsaved⟩

/-- Memory and the used set are in canonical form. -/
structure State.Canonical (s : State) : Prop where
  mem : s.mem.wf
  used : s.used.wf

theorem State.StoredBy.canonical {i : Instr} {s u : State} (h : s.StoredBy i u) (hs : s.Canonical) : u.Canonical := by
  cases h with
  | nothing hmem hused => exact ⟨hmem ▸ hs.mem, hused ▸ hs.used⟩
  | word m x v _ hmem hused => exact ⟨hmem ▸ Memory.write_wf hs.mem _ v, hused ▸ UsedSet.mark_wf hs.used _⟩

theorem State.interruptEntry_canonical {s : State} (h : s.Canonical) : s.interruptEntry.Canonical :=
  ⟨Memory.write_wf h.mem 0 _, UsedSet.mark_wf h.used 0⟩

theorem State.DeliveredAndGuarded.canonical {s t : State} (h : s.DeliveredAndGuarded t) (hs : s.Canonical) :
    t.Canonical := by
  obtain ⟨hmem, hused⟩ := h.memory
  exact ⟨hmem ▸ hs.mem, hused ▸ hs.used⟩

theorem State.finishCycle_canonical {u : State} (h : u.Canonical) : u.finishCycle.Canonical :=
  u.finishCycle_deliveredAndGuarded.elim (fun hend => hend.canonical h)
    fun hend => hend.canonical (State.interruptEntry_canonical h)

theorem step_canonical {s t : State} (hs : s.Canonical) (h : step s = .next t) : t.Canonical := by
  have hexecute : s.fetch.decodePhase.Canonical := ⟨hs.mem, hs.used⟩
  obtain ⟨-, ⟨_, -, rfl⟩ | ⟨i, u, -, hu, rfl⟩⟩ := step_next_cases h
  · exact ⟨hs.mem, hs.used⟩
  · exact State.finishCycle_canonical ((exec_storedBy hu).canonical hexecute)

/-! Ticks -/

/-- EXECUTE takes the instruction's cycle total but for FETCH's and DECODE's 3 ticks (R137). -/
theorem exec_CYC {i : Instr} {s u : State} (h : exec i s = .next u) : u.CYC + 3 = s.CYC + cycleTotal s.config i := by
  cases i
  case and indirect _ | add indirect _ | lda indirect _ | sta indirect _ | bun indirect _ | bsa indirect _
      | isz indirect _ =>
    cases h
    cases indirect <;> rfl
  case sza | hlt =>
    cases h
    simp [executeTicks, cycleTotal, Nat.add_assoc, Nat.add_comm 3]
  all_goals
    cases h
    rfl

theorem State.DeliveredAndGuarded.CYC {s t : State} (h : s.DeliveredAndGuarded t) : t.CYC = s.CYC :=
  (congrArg State.CYC h.frame :)

/-- After EXECUTE only an interrupt entry takes ticks, three of them. -/
theorem State.finishCycle_CYC (u : State) :
    u.finishCycle.CYC = u.CYC + if u.S = true ∧ u.IEN = true ∧ u.FGI = true then 3 else 0 := by
  cases hS : u.S with
  | false => simp [State.finishCycle_of_stopped hS]
  | true =>
    by_cases h : u.IEN = true ∧ u.FGI = true
    · simp only [h, and_self, if_true]
      exact (State.finishCycle_of_pending hS h).CYC
    · simpa [h] using (State.finishCycle_of_not_pending hS h).CYC

/-- The ticks of the cycle of an instruction, from FETCH on. -/
theorem cycle_CYC {s u : State} {i : Instr} (hu : exec i s.fetch.decodePhase = .next u) :
    u.finishCycle.CYC =
      s.CYC + cycleTotal s.config i + if u.S = true ∧ u.IEN = true ∧ u.FGI = true then 3 else 0 := by
  have hexec : u.CYC + 3 = s.CYC + 3 + cycleTotal s.config i := exec_CYC hu
  rw [State.finishCycle_CYC]
  omega

/-- Settles O47: EXECUTE's ticks and an entry's, on FETCH's and DECODE's three; those three alone on an illegal word. -/
theorem cycleTakesItsTableOfTicks : Obligations.CycleTakesItsTableOfTicks := by
  refine ⟨fun s t u i hb hi hu hstep => ?legal, fun s t r hr hstep => ?illegal⟩
  case legal =>
    cases (step_of_exec_next hb hi hu).symm.trans hstep
    exact cycle_CYC hu
  case illegal => rw [step_of_fetched_error hr hstep]; rfl

theorem three_le_cycleTotal (c : Config) (i : Instr) : 3 ≤ cycleTotal c i := by
  cases i
  case and indirect _ | add indirect _ | lda indirect _ | sta indirect _ | bun indirect _ | bsa indirect _
      | isz indirect _ => cases indirect <;> simp [cycleTotal]
  all_goals simp [cycleTotal]

/-- Settles O48: no decoded instruction and no illegal word stops the cycle, and no cycle total is below 3. -/
theorem everyCycleCompletes : Obligations.EveryCycleCompletes := by
  intro s hb
  cases hd : decode s.config (s.mem.read s.PC) with
  | error r => exact ⟨_, step_of_decode_error hb hd, Nat.le_refl _⟩
  | ok i =>
    obtain ⟨u, hu⟩ := exec_completes i s.fetch.decodePhase
    refine ⟨_, step_of_exec_next hb hd hu, ?_⟩
    have htotal : 3 ≤ cycleTotal s.config i := three_le_cycleTotal s.config i
    rw [cycle_CYC hu]
    omega

/-! The invariant -/

theorem cycleTotal_le_seven {c : Config} (h : c.wf = true) (i : Instr) : cycleTotal c i ≤ 7 := by
  obtain ⟨-, hhlt, hsza⟩ := config_wf_iff.mp h
  have hhlt : c.hltTicks ≤ 1 := of_decide_eq_true hhlt
  have hsza : c.szaTicks ≤ 1 := of_decide_eq_true hsza
  cases i
  case and indirect _ | add indirect _ | lda indirect _ | sta indirect _ | bun indirect _ | bsa indirect _
      | isz indirect _ => cases indirect <;> simp [cycleTotal]
  case sza | hlt => simp only [cycleTotal]; omega
  all_goals simp [cycleTotal]

/-- No cycle takes more than seven ticks and an interrupt entry's three. -/
theorem step_CYC_le {s t : State} (hwf : s.config.wf = true) (h : step s = .next t) : t.CYC ≤ s.CYC + 10 := by
  obtain ⟨-, ⟨_, -, rfl⟩ | ⟨i, u, -, hu, rfl⟩⟩ := step_next_cases h
  · exact Nat.add_le_add_left (by decide : 3 ≤ 10) s.CYC
  · have htotal : cycleTotal s.config i ≤ 7 := cycleTotal_le_seven hwf i
    rw [cycle_CYC hu]
    split <;> omega

theorem step_config {s t : State} (h : step s = .next t) : t.config = s.config := by
  obtain ⟨-, ⟨_, -, rfl⟩ | ⟨i, u, -, hu, rfl⟩⟩ := step_next_cases h
  · rfl
  · exact u.finishCycle_sameRegisters.config.trans (exec_sameDevice hu).config

theorem State.DeliveredAndGuarded.R {s t : State} (h : s.DeliveredAndGuarded t) : t.R = s.R :=
  (congrArg State.R h.frame :)

theorem step_R {s t : State} (h : step s = .next t) : t.R = false := by
  obtain ⟨⟨-, -, hR⟩, ⟨_, -, rfl⟩ | ⟨i, u, -, hu, rfl⟩⟩ := step_next_cases h
  · exact hR
  · rcases u.finishCycle_deliveredAndGuarded with hend | hend
    · exact hend.R.trans ((exec_controlFlags hu).R.trans hR)
    · exact hend.R

/-- A delivery is of an event of the script, so the cursor stays within it. -/
theorem step_EVQ_le {s t : State} (hs : s.EVQ ≤ s.config.inputEvents.length) (h : step s = .next t) :
    t.EVQ ≤ s.config.inputEvents.length := by
  rcases inputEventsAreConsumedOnceInOrder s t h with ⟨hkept, -⟩ | ⟨hmoved, event, hat, -⟩
  · exact hkept ▸ hs
  · obtain ⟨hlt, -⟩ := List.getElem?_eq_some_iff.mp hat
    exact hmoved ▸ hlt

theorem State.EndedBy.ended {reason : HaltReason} {t : State} (h : t.EndedBy reason) (hr : reason ≠ .running) :
    t.Ended :=
  ⟨h.S, h.phase, h.haltReason ▸ hr⟩

/-- A running engine goes on, below the ceiling, or ends for one of three reasons. -/
theorem State.Running.next {s t : State} (hs : s.Running) (h : step s = .next t) :
    t.Running ∨ (t.Ended ∧ t.haltReason ∈ [.hltExecuted, .decodeFailure, .runaway]) := by
  obtain ⟨-, -, hreason, -⟩ := hs
  cases step_cycleEnds h with
  | decodeFailure _ _ hended => exact .inr ⟨hended.ended nofun, by simp [hended.haltReason]⟩
  | hlt _ hended => exact .inr ⟨hended.ended nofun, by simp [hended.haltReason]⟩
  | runaway _ _ _ _ hended => exact .inr ⟨hended.ended nofun, by simp [hended.haltReason]⟩
  | goesOn _ _ _ hCYC hS hphase hkept => exact .inl ⟨hS, hphase, hkept.trans hreason, hCYC⟩

theorem State.Inv.running_of_step {s t : State} (hs : s.Inv) (h : step s = .next t) : s.Running := by
  obtain ⟨⟨-, hS, -⟩, -⟩ := step_next_cases h
  exact hs.run.resolve_right fun hended => Bool.false_ne_true (hended.1.symm.trans hS)

/-- Settles O51: a step begins running, below 600 ticks, and adds at most 10; each phase keeps the rest. -/
theorem stepKeepsTheInvariant : Obligations.StepKeepsTheInvariant := by
  intro s t hs hstep
  have hrunning : s.Running := hs.running_of_step hstep
  have hconfig : t.config = s.config := step_config hstep
  have hcanonical : t.Canonical := step_canonical ⟨hs.mem, hs.used⟩ hstep
  exact {
    config := hconfig ▸ hs.config
    mem := hcanonical.mem
    used := hcanonical.used
    r := step_R hstep
    evq := hconfig ▸ step_EVQ_le hs.evq hstep
    run := (hrunning.next hstep).imp_right And.left
    cyc := by
      obtain ⟨-, -, -, hCYC⟩ := hrunning
      have hle : t.CYC ≤ s.CYC + 10 := step_CYC_le hs.config hstep
      simp only [cycleCeiling] at hCYC
      omega }

theorem State.loadWord_canonical {s : State} (h : s.Canonical) (a : Addr) (v : Word) : (s.loadWord a v).Canonical := by
  refine ⟨Memory.write_wf h.mem a v, ?_⟩
  rw [State.loadWord_used]
  split
  · exact UsedSet.mark_wf h.used a
  · exact h.used

theorem State.loadImage_canonical {s : State} (h : s.Canonical) (image : List (Addr × Word)) :
    (s.loadImage image).Canonical := by
  induction image generalizing s with
  | nil => exact h
  | cons entry rest ih => exact ih (s.loadWord_canonical h entry.1 entry.2)

theorem State.initial_canonical (c : Config) : (State.initial c).Canonical := ⟨Memory.nil_wf, UsedSet.nil_wf⟩

/-- Settles O50: the load keeps the canonical form; the other fields are the reset's and the start's. -/
theorem invariantHoldsAfterConstruction : Obligations.InvariantHoldsAfterConstruction := by
  intro c image start hwf
  cases start with
  | none =>
    have hcanonical : (State.initial c).Canonical := State.initial_canonical c
    exact ⟨hwf, hcanonical.mem, hcanonical.used, rfl, Nat.zero_le _, .inr ⟨rfl, rfl, nofun⟩, Nat.zero_le _⟩
  | some p =>
    obtain ⟨hstate, -⟩ := constructionStartsARunAtStartPc
    have hbelow : 0 < cycleCeiling := by decide
    have hcanonical : (State.construct c image (some p)).Canonical :=
      have hload := State.loadImage_canonical (State.initial_canonical c) image
      ⟨hload.mem, hload.used⟩
    rw [hstate]
    exact ⟨hwf, hcanonical.mem, hcanonical.used, rfl, Nat.zero_le _, .inl ⟨rfl, rfl, rfl, hbelow⟩, Nat.zero_le _⟩

/-- Settles O49: the reset state is a constructed one. -/
theorem invariantHoldsAtReset : Obligations.InvariantHoldsAtReset :=
  invariantHoldsAfterConstruction defaultConfig [] (some 0x000) (by decide)

/-! Runs -/

theorem State.Running.not_ended {s : State} (h : s.Running) : ¬ s.Ended :=
  fun hended => Bool.false_ne_true (hended.1.symm.trans h.1)

theorem State.Ended.runFor_eq {s : State} (h : s.Ended) (n : Nat) : runFor n s = s :=
  runFor_of_isHalted (s.isHalted_iff.mpr (.inr h.1)) n

theorem core_run_succ {s t : State} (n : Nat) (h : step s = .next t) :
    Sys2Proof.core.run (n + 1) s = Sys2Proof.core.run n t := by
  have h : Sys2Proof.core.step s = .next t := h
  simp only [Host.Core.run, h]

theorem runFor_succ {s t : State} (n : Nat) (h : step s = .next t) : runFor (n + 1) s = runFor n t := by
  simp only [runFor, h]

/-- With `n` cycles of 3 ticks left to the ceiling, a running engine ends within them, where `runFor n` stops. -/
theorem State.Running.ends_within {n : Nat} {s : State} (hs : s.Inv) (hrunning : s.Running)
    (hleft : 600 ≤ s.CYC + 3 * n) :
    (∃ k ≤ n, Sys2Proof.core.run k s = .next (runFor n s)) ∧ (runFor n s).Ended ∧
      (runFor n s).haltReason ∈ [.hltExecuted, .decodeFailure, .runaway] := by
  induction n generalizing s with
  | zero =>
    obtain ⟨-, -, -, hCYC⟩ := hrunning
    exact absurd hCYC (Nat.not_lt.mpr hleft)
  | succ n ih =>
    have ⟨hS, hphase, _, _⟩ := hrunning
    obtain ⟨t, hstep, hticks⟩ := everyCycleCompletes s ⟨hphase, hS, hs.r⟩
    rw [runFor_succ n hstep]
    rcases hrunning.next hstep with hgoes | ⟨hended, hreason⟩
    · obtain ⟨⟨k, hk, hrun⟩, hend⟩ := ih (stepKeepsTheInvariant s t hs hstep) hgoes (by omega)
      exact ⟨⟨k + 1, Nat.succ_le_succ hk, (core_run_succ k hstep).trans hrun⟩, hend⟩
    · rw [hended.runFor_eq n]
      exact ⟨⟨1, Nat.succ_le_succ (Nat.zero_le n), core_run_succ 0 hstep⟩, hended, hreason⟩

/-- Settles O52: a running engine has at most 600 ticks left, and an ended one stays. -/
theorem everyRunEndsWithinTwoHundredCycles : Obligations.EveryRunEndsWithinTwoHundredCycles := by
  intro s hs
  rcases hs.run with hrunning | hended
  case inl =>
    obtain ⟨⟨k, hk, hrun⟩, hend, hreason⟩ := hrunning.ends_within (n := 200) hs (Nat.le_add_left 600 s.CYC)
    exact ⟨⟨k, hk, _, hrun, hend⟩, hend, fun _ => ⟨⟨k, hk, hrun⟩, hreason⟩,
      fun hended => absurd hended hrunning.not_ended⟩
  case inr =>
    have hrun : run s = s := hended.runFor_eq 200
    exact ⟨⟨0, Nat.zero_le _, s, rfl, hended⟩, hrun.symm ▸ hended,
      fun hrunning => absurd hended hrunning.not_ended, fun _ => hrun⟩

/-! Idioms -/

/-- Settles O56: RTI sets IEN, so with FGI = 1 the entry follows, and it saves the address that RTI took from
address 0. -/
theorem rtiWithInputReadyReentersTheHandler : Obligations.RtiWithInputReadyReentersTheHandler := by
  intro s hb hi hFGI
  have ⟨_, hS, hR⟩ := hb
  obtain ⟨u, hu, huS, huR, huFGI, huIEN, huPC, huCYC⟩ : ∃ u, exec .rti s.fetch.decodePhase = .next u ∧ u.S = s.S ∧
      u.R = s.R ∧ u.FGI = s.FGI ∧ u.IEN = true ∧ u.PC = addressField (s.mem.read 0x000) ∧ u.CYC = s.CYC + 4 :=
    ⟨_, exec_rti _, rfl, rfl, rfl, rfl, rfl, rfl⟩
  have hend : u.interruptEntry.DeliveredAndGuarded u.finishCycle :=
    State.finishCycle_of_pending (huS.trans hS) ⟨huIEN, huFGI.trans hFGI⟩
  obtain ⟨hIEN, hPC, -, -⟩ := hend.atHandler
  obtain ⟨-, hread⟩ := hend.interruptEntry_frame (huR.trans hR)
  refine ⟨_, step_of_exec_next hb hi hu, hPC, hIEN, ?FGI, ?address, ?CYC⟩
  case FGI =>
    rcases u.finishCycle_FGI with hkept | ⟨hset, -⟩
    · exact hkept.trans (huFGI.trans hFGI)
    · exact hset
  case address => rw [hread, if_pos rfl, addressField_widenPC, huPC]
  case CYC =>
    calc u.finishCycle.CYC = u.CYC + 3 := hend.CYC
      _ = s.CYC + 7 := by rw [huCYC]

/-- Settles O57: below the ceiling and with no entry the cycle ends at the next FETCH, which reads the word just
written. -/
theorem storeIsSeenByTheNextFetch : Obligations.StoreIsSeenByTheNextFetch := by
  intro s m x hb hi htarget hnone hCYC
  have ⟨_, hS, _⟩ := hb
  obtain ⟨u, hu, huS, huIEN, huFGI, huPC, humem, huCYC⟩ : ∃ u, exec (.sta m x) s.fetch.decodePhase = .next u ∧
      u.S = s.S ∧ u.IEN = s.IEN ∧ u.FGI = s.FGI ∧ u.PC = s.PC + 1 ∧
      u.mem = s.mem.write (s.effectiveAddress m x) s.AC ∧ u.CYC = s.CYC + 3 + if m then 2 else 1 :=
    ⟨_, exec_sta _ m x, rfl, rfl, rfl, rfl, rfl, rfl⟩
  have hend : u.DeliveredAndGuarded u.finishCycle :=
    State.finishCycle_of_not_pending (huS.trans hS) (by rwa [huIEN, huFGI])
  have hstep : step s = .next u.finishCycle := step_of_exec_next hb hi hu
  have hbelow : u.finishCycle.CYC < 600 := by
    rw [hend.CYC, huCYC]
    split <;> omega
  obtain ⟨-, hgoesOn⟩ := runawayGuardStopsAtTheCeiling.2 s _ _ hb hi nofun hstep
  obtain ⟨hrunning, hphase, -⟩ := hgoesOn hbelow
  refine ⟨_, hstep, ⟨hphase, hrunning, step_R hstep⟩, ?fetched⟩
  case fetched =>
    calc u.finishCycle.mem.read u.finishCycle.PC
        = (s.mem.write (s.effectiveAddress m x) s.AC).read (s.PC + 1) := by rw [hend.memory.1, humem, hend.PC, huPC]
      _ = s.AC := by rw [htarget, Memory.read_write_same]

end Sys2Proof.Machine
end
